-- ==== Sys2Proof/Word.lean ====
section
/-! DEFINITION. The words and numbers of the NL-440 (00_scope.md, Conventions) and fixed tables of records. -/

namespace Sys2Proof

/-- One telegram byte. -/
abbrev Byte := BitVec 8
/-- A belt position: the Line Position and everything measured on its scale, modulo 16,777,216. -/
abbrev Pos := BitVec 24
/-- A customer id, compared place by place under a mask (R28). -/
abbrev CustomerId := BitVec 16
/-- L0 to L3. -/
abbrev Lane := Fin 4
/-- ST0 to ST5. -/
abbrev StationId := Fin 6
/-- OUT0 to OUT15. -/
abbrev OutId := Fin 16
/-- A slot number of the Tracking Table. -/
abbrev Tag := Fin 24
/-- Article codes 0 to 63. -/
abbrev Article := Fin 64
/-- Fold plan numbers 0 to 15. -/
abbrev PlanNo := Fin 16
/-- Customer Map entry numbers 0 to 15. -/
abbrev CustomerIndex := Fin 16
/-- Customer groups 0 to 15; 0 means unassigned. -/
abbrev Group := Fin 16
/-- The place of a step in a record's step list. -/
abbrev StepNo := Fin 4

def allLanes : List Lane := List.finRange 4
def allStations : List StationId := List.finRange 6
def allOuts : List OutId := List.finRange 16
def allTags : List Tag := List.finRange 24
def allSteps : List StepNo := List.finRange 4

/-- A table with entry `i` replaced. -/
def upd {α : Type} {n : Nat} (v : Vector α n) (i : Fin n) (x : α) : Vector α n := v.set i.1 x i.2

/-- The table whose entry `i` is `f i`. -/
def tabulate {α : Type} {n : Nat} (f : Fin n → α) : Vector α n :=
  ⟨⟨(List.finRange n).map f⟩, by simp⟩

@[simp] theorem getElem_tabulate {α : Type} {n : Nat} (f : Fin n → α) (k : Nat) (h : k < n) :
    (tabulate f)[k] = f ⟨k, h⟩ := by
  simp [tabulate]

theorem getElem_upd {α : Type} {n : Nat} (v : Vector α n) (i : Fin n) (x : α) (k : Nat)
    (h : k < n) : (upd v i x)[k] = if i.1 = k then x else v[k] := by
  simp [upd, Vector.getElem_set]

@[simp] theorem getElem_upd_self {α : Type} {n : Nat} (v : Vector α n) (i : Fin n) (x : α) :
    (upd v i x)[i.1] = x := by
  simp [getElem_upd]

theorem getElem_upd_ne {α : Type} {n : Nat} (v : Vector α n) {i j : Fin n} (x : α) (h : i ≠ j) :
    (upd v i x)[j.1] = v[j.1] := by
  simp [getElem_upd, Fin.val_ne_of_ne h]

end Sys2Proof
end

