-- ==== Sys2Proof/Syntax.lean ====
section
/-! DEFINITION. The commands of the part: one constructor per row of spec/opcode_table.json, in the table's order.
Operands are what each event or telegram carries. `src` is a telegram's source byte, `p` its payload,
`bcast` says that it was addressed to node 31. -/

namespace Sys2Proof

/-- The eight sensors of Section 1.4: LSk at the measuring line, ESk at the stacker entry. -/
inductive Sensor where
  | ls (k : Lane)
  | es (k : Lane)
  deriving DecidableEq, Repr

inductive Instr where
  /-- R1: a rising edge on ENC. -/
  | encoderPulse
  /-- R9: a sensor input rises. -/
  | cover (x : Sensor)
  /-- R10: a sensor input falls. -/
  | uncover (x : Sensor)
  /-- R11: the Line Position has reached a CLEARING qualifier's confirm position. -/
  | confirmPositionReached (x : Sensor)
  /-- R21: the Line Position has reached the expiry position of the head of lane `k`'s queue. -/
  | announceExpiry (k : Lane)
  /-- R44: the Line Position has reached the overlength position of record `t`. -/
  | overlengthWait (t : Tag)
  /-- R48: the Line Position has reached lane `k`'s jam position. -/
  | jam (k : Lane)
  /-- R82: the Line Position has reached the FOLD entry of step `j` of record `t`. -/
  | foldFire (t : Tag) (j : StepNo)
  /-- R99: the Line Position has reached record `t`'s DIVERT_OPEN entry. -/
  | divertOpenFire (t : Tag)
  /-- R49: the Line Position has reached record `t`'s DIVERT_CLOSE entry. -/
  | divertCloseFire (t : Tag)
  /-- R84: the Line Position has reached output `o`'s busy-until. -/
  | busyUntilReached (o : OutId)
  /-- R97: the shot timer of output `o` expires. -/
  | shotTimerExpiry (o : OutId)
  /-- R119: the discharge timer of lane `k`'s stacker expires. -/
  | dischargeTimeout (k : Lane)
  /-- R117: SACK of lane `k` rises. -/
  | sackRise (k : Lane)
  /-- R118: SCLR of lane `k` rises. -/
  | sclrRise (k : Lane)
  /-- R161: the drain condition holds in DRAIN. -/
  | drainCompletion
  /-- R165: power-on, or RST returns high; `na` is the level of the straps NA4 to NA0. -/
  | coldReset (na : BitVec 5)
  /-- R172: the telegram completed on RXD is checked and disposed of. -/
  | telegramReceived
  /-- R173: the last byte of the telegram on TXD has been sent. -/
  | telegramSent
  /-- R174: a telegram of unknown kind addressed to the part. -/
  | unknownKind (src kind : Byte)
  /-- R18. -/
  | announce (src : Byte) (p : List Byte)
  /-- R18. -/
  | separator (src : Byte) (p : List Byte)
  /-- R144. -/
  | setupGlobals (src : Byte) (p : List Byte)
  /-- R145. -/
  | setupStation (src : Byte) (p : List Byte)
  /-- R146. -/
  | setupOutput (src : Byte) (p : List Byte)
  /-- R147. -/
  | setupDiverter (src : Byte) (p : List Byte)
  /-- R148, R149. -/
  | commitMap (src : Byte) (p : List Byte)
  /-- R151. -/
  | loadArticle (src : Byte) (p : List Byte)
  /-- R152. -/
  | loadPlan (src : Byte) (p : List Byte)
  /-- R153. -/
  | loadCustomer (src : Byte) (p : List Byte)
  /-- R154. -/
  | loadLanes (src : Byte) (p : List Byte)
  /-- R155. -/
  | lockEntry (src : Byte) (p : List Byte)
  /-- R159, target READY. -/
  | lineModeReady (src : Byte) (bcast : Bool)
  /-- R159, target RUN. -/
  | lineModeRun (src : Byte) (bcast : Bool)
  /-- R159, target DRAIN. -/
  | lineModeDrain (src : Byte) (bcast : Bool)
  /-- R159, target SERVICE. -/
  | lineModeService (src : Byte) (bcast : Bool)
  /-- R164. -/
  | lineReset (src : Byte) (bcast : Bool) (p : List Byte)
  /-- R122; `lane` and `value` are payload bytes (R121). -/
  | stackCmdClose (src lane value : Byte)
  /-- R123. -/
  | stackCmdStop (src lane value : Byte)
  /-- R123. -/
  | stackCmdStopAfter (src lane value : Byte)
  /-- R124. -/
  | stackCmdResume (src lane value : Byte)
  /-- R125. -/
  | stackCmdTarget (src lane value : Byte)
  /-- R126. -/
  | clearLane (src : Byte) (p : List Byte)
  /-- R103; `out` is the payload's output byte (R102). -/
  | forceOutputSet (src out : Byte)
  /-- R104. -/
  | forceOutputClear (src out : Byte)
  /-- R105. -/
  | forceOutputShot (src out : Byte)
  /-- R136 to R138. -/
  | tallyFreeze (src : Byte) (p : List Byte)
  /-- R140. -/
  | tallyRead (src : Byte) (p : List Byte)
  /-- R169. -/
  | statusRead (src : Byte) (p : List Byte)
  /-- R55. -/
  | itemRead (src : Byte) (p : List Byte)
  /-- R171: one byte on RXD; `stopOk` says that its stop bit was good. -/
  | rxdByte (b : Byte) (stopOk : Bool)
  /-- R178: RST goes low. -/
  | rstFalls
  deriving DecidableEq, Repr

end Sys2Proof
end

