-- ==== Sys2Proof/Decode.lean ====
section
/-! DEFINITION. The rows of the table that give bits: none does (spec/opcode_table.json has no "fixed" field),
so no word spells a command. Telegram bytes are read in Machine/Operands.lean and Machine/Link.lean. -/

namespace Sys2Proof

/-- The command that a word spells by the table's bits: the table gives none. -/
def decodeTableWord (_nbits _w : Nat) : Option Instr := none

end Sys2Proof
end

