-- ==== Sys2Proof/Config.lean ====
section
/-! DEFINITION. What the spec leaves free. -/

namespace Sys2Proof.Config

/-- R173 leaves open which of two things that reach an idle transmitter at one instant is taken
first. For a broadcast that is acted on and forwarded (R172), `forwardFirst n` says whether the
`n`-th such telegram is forwarded before it is acted on. No body: nothing may rest on its value.
DESIGN CHOICE of form, notes/assumptions/10.md; safe. -/
opaque forwardFirst : Nat → Bool

/-- R48 has the note of a JAM carry the present position, R166 the jam position. They differ for a record that is
already overdue as the jam wait passes to it; `lateJamNote jam now` says whether that note carries the present
position `now`. No body: nothing may rest on its value. DESIGN CHOICE of form, notes/assumptions/15.md; safe. -/
opaque lateJamNote : Pos → Pos → Bool

end Sys2Proof.Config
end

