-- ==== Sys2Proof/Machine/State.lean ====
section
/-! DEFINITION. Everything the spec lets the part hold, as plain data, and its values right after cold reset.
INVENTORY.md lists each piece with its rule. -/

namespace Sys2Proof.Machine

/-! ## Position Unit (chapter 1) -/

/-- R8: the mark and the confirm position exist in CLEARING alone. -/
inductive Qualifier where
  | clear
  | covered
  | clearing (mark confirm : Pos)
  deriving DecidableEq, Repr

/-- Input pins whose level a rule reads: the sensors (R8 to R10) and RST (R165). -/
structure Pins where
  ls : Vector Bool 4
  es : Vector Bool 4
  /-- RST is high: the part takes events. -/
  rst : Bool
  deriving DecidableEq, Repr

structure PositionUnit where
  prescale : Nat
  residue : Nat
  position : Pos
  confirmSpan : Nat
  lsQual : Vector Qualifier 4
  esQual : Vector Qualifier 4
  deriving DecidableEq, Repr

/-! ## Line Control (chapter 10) -/

/-- R158. -/
inductive LineState where
  | init | ready | run | drain | service
  deriving DecidableEq, Repr

/-- R158, last column: why a change of line state is reported. -/
inductive StateCause where
  | commit | mode | drainEnd | lineReset
  deriving DecidableEq, Repr

/-- R56. -/
structure LaneCounters where
  entered : BitVec 24
  arrived : BitVec 24
  rejected : BitVec 24
  jammed : BitVec 24
  discarded : BitVec 24
  deriving DecidableEq, Repr

/-! ## Setup Store (chapter 9) -/

/-- R144. -/
structure Globals where
  prescale : Nat
  confirmSpan : Nat
  margin : Nat
  arm : Nat
  announceSpan : Nat
  stackDist : Nat
  tol : Nat
  reportNode : Byte
  timeout : Nat
  deriving DecidableEq, Repr

/-- R145. -/
inductive Station where
  | absent
  | lane (dist busy : Nat) (outs : Vector (Option OutId) 4)
  | shared (dist busy : Nat) (out : OutId)
  deriving DecidableEq, Repr

/-- R146. -/
inductive OutMode where
  | pulse | latch
  deriving DecidableEq, Repr

/-- R146: an output's staged mode; the shot length of a LATCH output is not read and held as 0. -/
structure OutCfg where
  mode : OutMode
  shot : Nat
  deriving DecidableEq, Repr

/-- R147. -/
structure Diverter where
  output : Option OutId
  dist : Nat
  openLead : Nat
  closeTrail : Nat
  cap : Nat
  timeout : Nat
  deriving DecidableEq, Repr

/-- R143: the Station Map, as staged and as committed. -/
structure StationMap where
  globals : Option Globals
  stations : Vector Station 6
  outputs : Vector (Option OutCfg) 16
  diverters : Vector Diverter 4
  deriving DecidableEq, Repr

inductive Route where
  | stack | flat | reject
  deriving DecidableEq, Repr

/-- R151: a valid row. -/
structure ArticleRow where
  route : Route
  plan : PlanNo
  min : Nat
  max : Nat
  target : Nat
  deriving DecidableEq, Repr

/-- R152: one step of a fold plan. -/
structure PlanStep where
  station : StationId
  num : Nat
  den : Nat
  trim : Int
  deriving DecidableEq, Repr

/-- R153: a valid entry. -/
structure CustomerEntry where
  base : CustomerId
  mask : CustomerId
  group : Group
  deriving DecidableEq, Repr

inductive PlanKind where
  | wide | dual | quad
  deriving DecidableEq, Repr

inductive AnonPolicy where
  | reject | stack
  deriving DecidableEq, Repr

/-- R154. -/
structure LanePlan where
  plan : PlanKind
  mask : BitVec 4
  policy : AnonPolicy
  default : Article
  deriving DecidableEq, Repr

structure Setup where
  staging : StationMap
  committed : Option StationMap
  articles : Vector (Option ArticleRow) 64
  plans : Vector (Option (List PlanStep)) 16
  customers : Vector (Option CustomerEntry) 16
  lanes : Option LanePlan
  articleLocks : Vector Bool 64
  planLocks : Vector Bool 16
  deriving DecidableEq, Repr

/-! ## Admission Unit (chapter 2) -/

inductive EntryKind where
  | announce | separator
  deriving DecidableEq, Repr

/-- R17: an entry of an Announcement Queue. -/
inductive QueueEntry where
  | announce (article : Article) (customer : CustomerId) (stamp : Pos)
  | separator (stamp : Pos)
  deriving DecidableEq, Repr

/-- R20. -/
inductive LostCause where
  | malformed | notRunning | laneOff | queueFull | expired | untracked | drained
  deriving DecidableEq, Repr

/-! ## Tracking Table (chapter 3) and Fold Calculator (chapter 4) -/

inductive StepStatus where
  | pending | fired | cancelled
  deriving DecidableEq, Repr

/-- R59: a step of a record's step list. -/
structure FoldStep where
  station : StationId
  num : Nat
  den : Nat
  trim : Int
  d : Option Nat
  fire : Option Pos
  status : StepStatus
  deriving DecidableEq, Repr

inductive RecordState where
  | entering | folding | toStack | diverting
  deriving DecidableEq, Repr

inductive Reason where
  | anonymous | articleOff | undersize | oversize | lateFold | conflict | laneStopped
  deriving DecidableEq, Repr

/-- The fates of a record (Section 3.2). -/
inductive Fate where
  | arrived | rejected | jammed | discarded
  deriving DecidableEq, Repr

/-- An item record (Section 3.2, R39). Its tag is the number of its slot. -/
structure ItemRecord where
  lane : Lane
  state : RecordState
  article : Article
  customer : Option CustomerId
  group : Group
  anonymous : Bool
  startsBatch : Bool
  route : Route
  reason : Option Reason
  lead : Pos
  trail : Option Pos
  len : Option Nat
  min : Nat
  max : Nat
  target : Nat
  steps : List FoldStep
  /-- R: where the packet's present leading edge was at the measuring line. -/
  headRef : Pos
  /-- Lc: the packet's present length. -/
  curLen : Option Nat
  expected : Option Pos
  /-- R44: the overlength wait, while it stands. -/
  overWait : Option Pos
  deriving DecidableEq, Repr

structure Tracking where
  slots : Vector (Option ItemRecord) 24
  order : List Tag
  counters : Vector LaneCounters 4
  deriving DecidableEq, Repr

/-! ## Fire Schedule (chapter 5) -/

/-- R78: only a FOLD entry names a step. -/
inductive FireKind where
  | fold (step : StepNo)
  | divertOpen
  | divertClose
  deriving DecidableEq, Repr

/-- R78. -/
structure FireEntry where
  pos : Pos
  kind : FireKind
  out : OutId
  tag : Tag
  deriving DecidableEq, Repr

/-- R79, R84: the entries, nearest first; a busy-until is a position (BUSY) or `none` (following the
Line Position). -/
structure Schedule where
  entries : List FireEntry
  busy : Vector (Option Pos) 16
  deriving DecidableEq, Repr

/-! ## Output Unit (chapter 6) -/

inductive OutRole where
  | unused | station | diverter
  deriving DecidableEq, Repr

/-- Chapter 6: `timer` is none while the shot timer is stopped, and otherwise the ticks it has to go; with 0 to go
its expiry is due (R7, entry 5). -/
structure OutputRecord where
  role : OutRole
  shot : Nat
  timer : Option Nat
  openCount : Nat
  hold : Bool
  deriving DecidableEq, Repr

/-! ## Stacker Units (chapter 7) -/

/-- A key (group, article). -/
structure Key where
  group : Group
  article : Article
  deriving DecidableEq, Repr

inductive Phase where
  | collecting | offered | lowering | paused | stopped
  deriving DecidableEq, Repr

/-- R108: an open stack, which holds a piece at least. -/
structure OpenStack where
  key : Key
  pieces : Nat
  strays : Nat
  target : Nat
  batchStart : Bool
  deriving DecidableEq, Repr

/-- R108: a shelf piece. -/
structure Piece where
  key : Key
  startsBatch : Bool
  target : Nat
  stray : Bool
  deriving DecidableEq, Repr

/-- R108: `timer` is none while the discharge timer is stopped, and otherwise the ticks it has to go; with 0 to go
its expiry is due (R7, entry 5). `stack` is none while the stack is empty. -/
structure Stacker where
  phase : Phase
  stack : Option OpenStack
  shelf : List Piece
  pausePending : Bool
  override : Nat
  timer : Option Nat
  serial : BitVec 16
  unplaced : Nat
  deriving DecidableEq, Repr

/-- R115. -/
inductive CloseCause where
  | target | batch | separator | command | drain | faultClear | lineReset
  deriving DecidableEq, Repr

/-- R166, R167: the five lane faults and the three warnings. -/
inductive FaultKind where
  | jam | trackOverrun | shelfOverflow | shelfMix | dischargeTimeout
  | stray | handshake | unexpectedPiece
  deriving DecidableEq, Repr

/-! ## Tally Unit (chapter 8) -/

/-- R130, R134. -/
structure TallyRow where
  pieces : Nat
  stackCount : Nat
  rejects : Nat
  saturated : Bool
  deriving DecidableEq, Repr

/-- R135: a snapshot row; the overflow row has no key. -/
structure SnapRow where
  key : Option Key
  row : TallyRow
  deriving DecidableEq, Repr

structure Tally where
  live : List (Key × TallyRow)
  overflow : TallyRow
  freezeSerial : BitVec 8
  snapSerial : BitVec 8
  snapStamp : Option Pos
  snapCleared : Bool
  snapRows : List SnapRow
  deriving DecidableEq, Repr

/-! ## Telegram Link (chapter 11) -/

/-- R170: a telegram without what follows from these fields (start mark, length, check word). -/
structure Telegram where
  dest : Byte
  src : Byte
  kind : Byte
  payload : List Byte
  deriving DecidableEq, Repr

/-- R171: BODY holds the bytes so far, the start mark among them. -/
inductive Receiver where
  | hunt (candidate : Bool)
  | body (bytes : List Byte)
  deriving DecidableEq, Repr

/-- R173: the transmitter is idle or sends the head of the forward buffer or of the Report Queue. -/
inductive Transmitter where
  | idle | forwarding | reporting
  deriving DecidableEq, Repr

structure Link where
  receiver : Receiver
  forward : List Telegram
  reports : List Telegram
  transmitter : Transmitter
  errors : Nat
  deriving DecidableEq, Repr

/-- R174. -/
inductive Code where
  | accepted | clamped | wrongState | locked | invalid | frozen
  deriving DecidableEq, Repr

/-- The notes of R176, with the fields their layouts carry. -/
inductive Note where
  | stackDone (lane : Lane) (serial : BitVec 16) (key : Key) (pieces strays target : Nat)
      (batchStart : Bool) (cause : CloseCause) (unplaced : Nat)
  | reject (lane : Lane) (tag : Tag) (key : Key) (customer : Option CustomerId)
      (reason : Option Reason) (lead : Pos) (len : Option Nat) (position : Pos)
  | fault (lane : Lane) (kind : FaultKind) (position : Pos)
  /-- `article` and `customer` are as far as the telegram carried them (R20, entry 18). -/
  | lost (lane : Byte) (cause : LostCause) (kind : EntryKind) (article : Option Byte)
      (customer : Option CustomerId) (stamp position : Pos)
  | state (previous new : LineState) (cause : StateCause) (position : Pos)
  deriving DecidableEq, Repr

/-! ## The whole -/

structure State where
  /-- The commands not yet taken, first in first out (the model's own). -/
  pending : List Instr
  pins : Pins
  /-- R165: the node address. -/
  node : BitVec 5
  unit : PositionUnit
  line : LineState
  /-- R168: the report-loss flag. -/
  loss : Bool
  queues : Vector (List QueueEntry) 4
  track : Tracking
  sched : Schedule
  outs : Vector OutputRecord 16
  stackers : Vector Stacker 4
  tally : Tally
  setup : Setup
  link : Link
  /-- How many free choices have been drawn (the model's own, entry 10). -/
  freeIndex : Nat
  deriving DecidableEq, Repr

/-- The part never stops with a fault: the spec gives every event an effect in every state. Lane
faults (R166) are effects on State. -/
inductive Fault where
  deriving DecidableEq, Repr

inductive Refusal where
  /-- Raised by an arm of `exec` that has no meaning yet: none has. Safe. -/
  | notModelled (mnemonic : String)
  deriving DecidableEq, Repr

/-- What one step answers. -/
abbrev Result := Host.Outcome State Fault Refusal

/-! ## Cold reset -/

/-- R143; the fields of a diverter without an output are DESIGN CHOICE 0 (entry 2), C is 0 by R108. -/
def StationMap.unloaded : StationMap :=
  { globals := none
    stations := Vector.replicate 6 .absent
    outputs := Vector.replicate 16 none
    diverters := Vector.replicate 4 ⟨none, 0, 0, 0, 0, 0⟩ }

/-- R157. -/
def Setup.cold : Setup :=
  { staging := .unloaded
    committed := none
    articles := Vector.replicate 64 none
    plans := Vector.replicate 16 none
    customers := Vector.replicate 16 none
    lanes := none
    articleLocks := Vector.replicate 64 false
    planLocks := Vector.replicate 16 false }

/-- R95; the shot length of an output without a mode is DESIGN CHOICE 0 (entry 2). -/
def OutputRecord.cold : OutputRecord := ⟨.unused, 0, none, 0, false⟩

/-- R108. -/
def Stacker.cold : Stacker := ⟨.collecting, none, [], false, 0, none, 0, 0⟩

def TallyRow.zero : TallyRow := ⟨0, 0, 0, false⟩

/-- R142. -/
def Tally.cold : Tally := ⟨[], .zero, 0, 0, none, false, []⟩

/-- R178. -/
def Link.cold : Link := ⟨.hunt false, [], [], .idle, 0⟩

/-- R58. -/
def Tracking.cold : Tracking :=
  { slots := Vector.replicate 24 none
    order := []
    counters := Vector.replicate 4 ⟨0, 0, 0, 0, 0⟩ }

/-- R93. -/
def Schedule.cold : Schedule := ⟨[], Vector.replicate 16 none⟩

/-- Section 1.6, with every sensor low. -/
def PositionUnit.cold : PositionUnit :=
  { prescale := 1
    residue := 0
    position := 0
    confirmSpan := 16
    lsQual := Vector.replicate 4 .clear
    esQual := Vector.replicate 4 .clear }

/-- The part right after cold reset (R165), with the levels that cold reset sampled chosen:
every sensor low and the straps at 4 (DESIGN CHOICE, entry 1; unsafe). -/
def State.reset : State :=
  { pending := []
    pins := ⟨Vector.replicate 4 false, Vector.replicate 4 false, true⟩
    node := 4
    unit := .cold
    line := .init
    loss := false
    queues := Vector.replicate 4 []
    track := .cold
    sched := .cold
    outs := Vector.replicate 16 .cold
    stackers := Vector.replicate 4 .cold
    tally := .cold
    setup := .cold
    link := .cold
    freeIndex := 0 }

end Sys2Proof.Machine
end

