-- ==== Sys2Proof/Machine/Operands.lean ====
section
/-! DEFINITION. Telegram bytes: how a payload byte is read, how a value is written, the codes of R174 to R176, the
frame of R170 and the layouts of notes. Kind bytes are hexadecimal (00_scope.md, Numbers and names; entry 33). -/

namespace Sys2Proof.Machine

/-! ## Reading payload bytes -/

/-- A byte that must number one of `n` things. -/
def byteFin (n : Nat) (b : Byte) : Option (Fin n) :=
  if h : b.toNat < n then some ⟨b.toNat, h⟩ else none

/-- A two-byte number, high byte first (R170). -/
def word16 (hi lo : Byte) : Nat := hi.toNat * 256 + lo.toNat

/-- A customer id, base or mask of two bytes. -/
def word16Bits (hi lo : Byte) : CustomerId := hi ++ lo

/-- R175: an output field, 255 for an absent output; none if it is neither. -/
def byteOutput (b : Byte) : Option (Option OutId) :=
  if b = 255 then some none else (byteFin 16 b).map some

/-- R175: a field that is 0 or 1. -/
def byteFlag (b : Byte) : Option Bool :=
  if b = 0 then some false else if b = 1 then some true else none

def byteRoute (b : Byte) : Option Route :=
  if b = 0 then some .stack else if b = 1 then some .flat else if b = 2 then some .reject else none

def byteMode (b : Byte) : Option OutMode :=
  if b = 0 then some .pulse else if b = 1 then some .latch else none

def bytePlanKind (b : Byte) : Option PlanKind :=
  if b = 0 then some .wide else if b = 1 then some .dual else if b = 2 then some .quad else none

def bytePolicy (b : Byte) : Option AnonPolicy :=
  if b = 0 then some .reject else if b = 1 then some .stack else none

/-- R175, line state; a LINE_MODE target of 0 is refused by its rule (R159). -/
def byteLineState (b : Byte) : Option LineState :=
  if b = 0 then some .init else if b = 1 then some .ready else if b = 2 then some .run
  else if b = 3 then some .drain else if b = 4 then some .service else none

/-! ## Writing values -/

def byteOf (n : Nat) : Byte := BitVec.ofNat 8 n
def flagByte (b : Bool) : Byte := if b then 1 else 0
/-- Two bytes, high byte first. -/
def bytes16 (n : Nat) : List Byte := [byteOf (n / 256), byteOf n]
/-- Three bytes, high byte first. -/
def bytes24 (n : Nat) : List Byte := [byteOf (n / 65536), byteOf (n / 256), byteOf n]
def posBytes (p : Pos) : List Byte := bytes24 p.toNat
/-- An absent position is carried as 0. -/
def optPosBytes (p : Option Pos) : List Byte := posBytes (p.getD 0)

/-! ## Codes (R174, R175): the place of a value in its list, counting from 0 -/

def LineState.code : LineState → Byte
  | .init => 0 | .ready => 1 | .run => 2 | .drain => 3 | .service => 4

def RecordState.code : RecordState → Byte
  | .entering => 0 | .folding => 1 | .toStack => 2 | .diverting => 3

def StepStatus.code : StepStatus → Byte
  | .pending => 0 | .fired => 1 | .cancelled => 2

def Phase.code : Phase → Byte
  | .collecting => 0 | .offered => 1 | .lowering => 2 | .paused => 3 | .stopped => 4

def Reason.code : Reason → Byte
  | .anonymous => 1 | .articleOff => 2 | .undersize => 3 | .oversize => 4
  | .lateFold => 5 | .conflict => 6 | .laneStopped => 7

/-- R175: no reason is 0. -/
def reasonCode : Option Reason → Byte
  | none => 0
  | some r => r.code

def Route.code : Route → Byte
  | .stack => 0 | .flat => 1 | .reject => 2

def CloseCause.code : CloseCause → Byte
  | .target => 0 | .batch => 1 | .separator => 2 | .command => 3 | .drain => 4
  | .faultClear => 5 | .lineReset => 6

def FaultKind.code : FaultKind → Byte
  | .jam => 0 | .trackOverrun => 1 | .shelfOverflow => 2 | .shelfMix => 3
  | .dischargeTimeout => 4 | .stray => 5 | .handshake => 6 | .unexpectedPiece => 7

/-- R166, R167: FAULT is 0, WARNING is 1. -/
def FaultKind.classCode : FaultKind → Byte
  | .jam | .trackOverrun | .shelfOverflow | .shelfMix | .dischargeTimeout => 0
  | .stray | .handshake | .unexpectedPiece => 1

def LostCause.code : LostCause → Byte
  | .malformed => 0 | .notRunning => 1 | .laneOff => 2 | .queueFull => 3
  | .expired => 4 | .untracked => 5 | .drained => 6

def EntryKind.code : EntryKind → Byte
  | .announce => 0 | .separator => 1

def StateCause.code : StateCause → Byte
  | .commit => 0 | .mode => 1 | .drainEnd => 2 | .lineReset => 3

def Code.code : Code → Byte
  | .accepted => 0 | .clamped => 1 | .wrongState => 2 | .locked => 3 | .invalid => 4 | .frozen => 5

/-! ## Kinds (R175, R176) -/

/-- The kind bytes of commands, as the answered kind of R174. -/
def kindAnnounce : Byte := 0x10
def kindSeparator : Byte := 0x11
def kindSetupGlobals : Byte := 0x20
def kindSetupStation : Byte := 0x21
def kindSetupOutput : Byte := 0x22
def kindSetupDiverter : Byte := 0x23
def kindCommitMap : Byte := 0x24
def kindLoadArticle : Byte := 0x30
def kindLoadPlan : Byte := 0x31
def kindLoadCustomer : Byte := 0x32
def kindLoadLanes : Byte := 0x33
def kindLockEntry : Byte := 0x34
def kindLineMode : Byte := 0x40
def kindLineReset : Byte := 0x41
def kindStackCmd : Byte := 0x42
def kindClearLane : Byte := 0x43
def kindForceOutput : Byte := 0x44
def kindTallyFreeze : Byte := 0x50
def kindTallyRead : Byte := 0x51
def kindStatusRead : Byte := 0x52
def kindItemRead : Byte := 0x53
def kindAnswer : Byte := 0x80

/-- The inbound kinds (Section 11.5). -/
def inboundKinds : List Byte :=
  [kindAnnounce, kindSeparator, kindSetupGlobals, kindSetupStation, kindSetupOutput,
   kindSetupDiverter, kindCommitMap, kindLoadArticle, kindLoadPlan, kindLoadCustomer, kindLoadLanes,
   kindLockEntry, kindLineMode, kindLineReset, kindStackCmd, kindClearLane, kindForceOutput,
   kindTallyFreeze, kindTallyRead, kindStatusRead, kindItemRead]

def Note.kind : Note → Byte
  | .stackDone .. => 0x81
  | .reject .. => 0x82
  | .fault .. => 0x83
  | .lost .. => 0x84
  | .state .. => 0x85

/-- R176: the layouts of the notes. -/
def Note.payload : Note → List Byte
  | .stackDone lane serial key pieces strays target batchStart cause unplaced =>
      [byteOf lane] ++ bytes16 serial.toNat ++ [byteOf key.group, byteOf key.article]
        ++ bytes16 pieces ++ bytes16 strays
        ++ [byteOf target, flagByte batchStart, cause.code] ++ bytes16 unplaced
  | .reject lane tag key customer reason lead len position =>
      [byteOf lane, byteOf tag, byteOf key.group, byteOf key.article, flagByte customer.isNone]
        ++ bytes16 (customer.getD 0).toNat ++ [reasonCode reason] ++ posBytes lead
        ++ bytes16 (len.getD 65535) ++ posBytes position
  | .fault lane kind position => [byteOf lane, kind.code, kind.classCode] ++ posBytes position
  | .lost lane cause kind article customer stamp position =>
      [lane, cause.code, kind.code, flagByte article.isSome, article.getD 0]
        ++ bytes16 (customer.getD 0).toNat ++ posBytes stamp ++ posBytes position
  | .state previous new cause position =>
      [previous.code, new.code, cause.code] ++ posBytes position

/-! ## The frame (R170) -/

/-- Bytes 2 to 5 + n of a telegram. -/
def Telegram.body (t : Telegram) : List Byte :=
  [t.dest, t.src, t.kind, byteOf t.payload.length] ++ t.payload

/-- The check word of a list of bytes: their sum modulo 65,536. -/
def checkSum (bytes : List Byte) : Nat := (bytes.map BitVec.toNat).sum % 65536

/-- The whole telegram as it stands on the ring. -/
def Telegram.bytes (t : Telegram) : List Byte :=
  [0xD3, 0x2C] ++ t.body ++ bytes16 (checkSum t.body)

end Sys2Proof.Machine
end

