-- ==== Sys2Proof/Machine/Position.lean ====
section
/-! DEFINITION. Arithmetic on belt positions (R5 and the Conventions of 00_scope.md). -/

namespace Sys2Proof.Machine

/-- The wrap distance from `b` to `a`. -/
def wrapDist (b a : Pos) : Nat := (a - b).toNat

/-- `a` is at or beyond `b`; otherwise `a` is before `b`. -/
def atOrBeyond (a b : Pos) : Bool := decide (wrapDist b a < 8388608)

/-- `x` is ahead of the Line Position `now`: it has not yet been reached. -/
def ahead (now x : Pos) : Bool := decide (1 ≤ wrapDist now x ∧ wrapDist now x ≤ 8388607)

/-- `p` lies within the window [x - w, x + w]. -/
def inWindow (x : Pos) (w : Nat) (p : Pos) : Bool :=
  decide (wrapDist (x - BitVec.ofNat 24 w) p ≤ 2 * w)

/-- The position `n` pulses beyond `p`. -/
def plus (p : Pos) (n : Nat) : Pos := p + BitVec.ofNat 24 n

/-- The position `n` pulses short of `p`. -/
def minus (p : Pos) (n : Nat) : Pos := p - BitVec.ofNat 24 n

end Sys2Proof.Machine
end

