-- ==== Sys2Proof/Machine/Flags.lean ====
section
/-! DEFINITION. What the blocks read of each other: the parameters in force, lane classes, counts, waits and the
levels of the output pins, each computed from the state that the spec keeps. -/

namespace Sys2Proof.Machine

/-! ## Parameters of a Station Map -/

/-- The globals of a map; a map is committed only with its globals loaded (R148), so the value for
an unloaded part is never consulted (entry 20). -/
def StationMap.params (m : StationMap) : Globals :=
  m.globals.getD ⟨1, 16, 0, 0, 0, 0, 0, 0, 0⟩

/-- dist(s); an ABSENT station has none and no plan names it (R152, entry 20). -/
def Station.distance : Station → Nat
  | .absent => 0
  | .lane dist _ _ => dist
  | .shared dist _ _ => dist

def Station.isPresent : Station → Bool
  | .absent => false
  | _ => true

/-- The outputs a station names. -/
def Station.outputs : Station → List OutId
  | .absent => []
  | .lane _ _ outs => outs.toList.filterMap id
  | .shared _ _ out => [out]

/-- R67: the output a fold of a record of lane `k` uses at the station. -/
def Station.outputFor (st : Station) (k : Lane) : Option OutId :=
  match st with
  | .absent => none
  | .lane _ _ outs => outs[k]
  | .shared _ _ out => some out

/-- A LANE station without an output for lane `k` (R148, R152, R154). -/
def Station.lacksLane (st : Station) (k : Lane) : Bool :=
  match st with
  | .lane _ _ outs => outs[k].isNone
  | _ => false

def Station.busy : Station → Nat
  | .absent => 0
  | .lane _ busy _ => busy
  | .shared _ busy _ => busy

/-- R85: the busy span of the station that names the output; an output of no station carries no
FOLD entry, so its 0 is never consulted. -/
def StationMap.busySpan (m : StationMap) (o : OutId) : Nat :=
  match m.stations.toList.find? (fun st => st.outputs.contains o) with
  | some st => st.busy
  | none => 0

/-- R147: the lane's own discharge timeout, or the global one where it is 0. -/
def StationMap.timeoutFor (m : StationMap) (k : Lane) : Nat :=
  if m.diverters[k].timeout = 0 then m.params.timeout else m.diverters[k].timeout

/-- The map that the part works with; before commit no rule consults it (R108, R156, entry 20). -/
def State.map (s : State) : StationMap := s.setup.committed.getD .unloaded

/-- The Lane Plan in force. Before commit R14 enables L0 alone, which is the plan that commit sets. -/
def LanePlan.atCommit : LanePlan := ⟨.wide, 1, .reject, 0⟩

def State.lanePlan (s : State) : LanePlan := s.setup.lanes.getD .atCommit

/-- R144, R170: node 0 until commit. -/
def State.reportNode (s : State) : Byte :=
  match s.setup.committed with
  | some m => m.params.reportNode
  | none => 0

def State.position (s : State) : Pos := s.unit.position

/-! ## Lanes -/

/-- The lanes of each plan (Section 1.5). -/
def PlanKind.holds : PlanKind → Lane → Bool
  | .wide, k => k = 0
  | .dual, k => k = 0 || k = 2
  | .quad, _ => true

/-- R14: the lane is in the plan. -/
def State.inPlan (s : State) (k : Lane) : Bool := s.lanePlan.plan.holds k

/-- R14: the lane is in the plan and set in the enable mask. -/
def State.enabled (s : State) (k : Lane) : Bool :=
  s.inPlan k && s.lanePlan.mask.getLsbD k

/-- The line states that act on sensors, handshakes and stacker commands. -/
def LineState.runs : LineState → Bool
  | .run => true
  | .drain => true
  | _ => false

/-! ## The Tracking Table as its neighbours see it -/

def State.record (s : State) (t : Tag) : Option ItemRecord := s.track.slots[t]

/-- R54: the number of live records of the lane. -/
def State.liveCount (s : State) (k : Lane) : Nat :=
  s.track.slots.toList.countP (fun r => r.any (fun r => r.lane = k))

/-- R54: records on their way to the stacker whose lengths are known. -/
def ItemRecord.inbound (r : ItemRecord) (k : Lane) : Bool :=
  decide (r.lane = k) && (r.state = .folding || r.state = .toStack) && r.reason.isNone

def State.inboundCount (s : State) (k : Lane) : Nat :=
  s.track.slots.toList.countP (fun r => r.any (fun r => r.inbound k))

/-- R50: no live record. -/
def State.tableEmpty (s : State) : Bool := s.track.slots.toList.all Option.isNone

/-- R36: the oldest record of the lane in a state. -/
def State.oldest (s : State) (k : Lane) (st : RecordState) : Option Tag :=
  s.track.order.find? (fun t => (s.record t).any (fun r => r.lane = k ∧ r.state = st))

/-- R80: the entries that a record owns. -/
def State.entriesOwned (s : State) (t : Tag) : Nat :=
  s.sched.entries.countP (fun e => e.tag = t)

/-- R46: the jam position of a record in TO_STACK. -/
def State.jamPosition (s : State) (r : ItemRecord) : Option Pos :=
  r.expected.map (fun x => plus x (s.map.params.tol + 1))

def QueueEntry.stamp : QueueEntry → Pos
  | .announce _ _ stamp => stamp
  | .separator stamp => stamp

/-- R21: where an entry at the head of its queue expires. -/
def State.expiryOf (s : State) (e : QueueEntry) : Pos :=
  plus e.stamp s.map.params.announceSpan

/-- R84: the position that busy-until stands at; a following one equals the Line Position. -/
def State.busyUntil (s : State) (o : OutId) : Pos := (s.sched.busy[o]).getD s.position

/-- A record's key. -/
def ItemRecord.key (r : ItemRecord) : Key := ⟨r.group, r.article⟩

/-! ## The levels of the output pins -/

/-- R95: PULSE for a station's output, LATCH for a diverter's. -/
def OutputRecord.mode (o : OutputRecord) : Option OutMode :=
  match o.role with
  | .unused => none
  | .station => some .pulse
  | .diverter => some .latch

/-- R96. -/
def OutputRecord.asserted (o : OutputRecord) : Bool :=
  match o.role with
  | .unused => false
  | .station => o.hold || o.timer.isSome
  | .diverter => o.hold || decide (0 < o.openCount)

def State.outLevel (s : State) (o : OutId) : Bool := (s.outs[o]).asserted

/-- R117. -/
def State.srdyLevel (s : State) (k : Lane) : Bool := (s.stackers[k]).phase = .offered

/-- The shelf capacity C of a lane; 0 until commit (R108). -/
def State.shelfCap (s : State) (k : Lane) : Nat := (s.map.diverters[k]).cap

/-- R127. -/
def State.holdLevel (s : State) (k : Lane) : Bool :=
  let st := s.stackers[k]
  decide (s.line ≠ .run) || !s.enabled k || st.phase = .paused || st.phase = .stopped
    || ((st.phase = .offered || st.phase = .lowering)
        && decide (s.shelfCap k ≤ st.shelf.length + s.inboundCount k))

/-- R173: the telegram on TXD. -/
def State.txTelegram (s : State) : Option Telegram :=
  match s.link.transmitter with
  | .idle => none
  | .forwarding => s.link.forward.head?
  | .reporting => s.link.reports.head?

/-- R161. -/
def State.drainDone (s : State) : Bool :=
  s.tableEmpty
    && allLanes.all (fun k =>
      let st := s.stackers[k]
      decide (st.phase ≠ .offered) && decide (st.phase ≠ .lowering)
        && !(decide (st.phase = .collecting) && st.stack.isSome))

end Sys2Proof.Machine
end

