-- ==== Sys2Proof/Machine/Ops.lean ====
section
/-! DEFINITION. The operations that several commands share: field updates, reports and answers, tally credits, the
Fire Schedule, closing and opening stacks, retiring records, lane faults and the lane-stop conversion. -/

namespace Sys2Proof.Machine

/-! ## Updates of one part of the state -/

def State.setPins (s : State) (x : Pins) : State := { s with pins := x }
def State.setUnit (s : State) (x : PositionUnit) : State := { s with unit := x }
def State.setLine (s : State) (x : LineState) : State := { s with line := x }
def State.setLoss (s : State) (x : Bool) : State := { s with loss := x }
def State.setQueues (s : State) (x : Vector (List QueueEntry) 4) : State := { s with queues := x }
def State.setTrack (s : State) (x : Tracking) : State := { s with track := x }
def State.setSched (s : State) (x : Schedule) : State := { s with sched := x }
def State.setOuts (s : State) (x : Vector OutputRecord 16) : State := { s with outs := x }
def State.setStackers (s : State) (x : Vector Stacker 4) : State := { s with stackers := x }
def State.setTally (s : State) (x : Tally) : State := { s with tally := x }
def State.setSetup (s : State) (x : Setup) : State := { s with setup := x }
def State.setLink (s : State) (x : Link) : State := { s with link := x }
def State.setFreeIndex (s : State) (x : Nat) : State := { s with freeIndex := x }

def State.setQueue (s : State) (k : Lane) (q : List QueueEntry) : State :=
  s.setQueues (upd s.queues k q)

def State.setOut (s : State) (o : OutId) (r : OutputRecord) : State := s.setOuts (upd s.outs o r)

def State.setStacker (s : State) (k : Lane) (st : Stacker) : State :=
  s.setStackers (upd s.stackers k st)

def State.setRecord (s : State) (t : Tag) (r : ItemRecord) : State :=
  s.setTrack { s.track with slots := upd s.track.slots t (some r) }

def State.setCounters (s : State) (k : Lane) (c : LaneCounters) : State :=
  s.setTrack { s.track with counters := upd s.track.counters k c }

def State.setEntries (s : State) (es : List FireEntry) : State :=
  s.setSched { s.sched with entries := es }

def State.setBusy (s : State) (o : OutId) (p : Option Pos) : State :=
  s.setSched { s.sched with busy := upd s.sched.busy o p }

/-! ## When a command is taken -/

/-- R165: while RST is low the part takes no event. -/
def whenUp (s : State) (f : State → State) : Result := .next (if s.pins.rst then f s else s)

/-- R172, lines 1 and 2: a telegram is acted on when it is addressed to the part and did not start
from it; a part strapped to 31 is never addressed (entry 9). -/
def State.addressable (s : State) (src : Byte) : Bool :=
  decide (s.node ≠ 31) && decide (src.toNat ≠ s.node.toNat)

/-- A command row: the telegram it names, addressed to the part. -/
def whenAddressed (src : Byte) (s : State) (f : State → State) : Result :=
  whenUp s (fun s => if s.addressable src then f s else s)

/-! ## The Report Queue and the transmitter (R173) -/

/-- An idle transmitter starts the oldest telegram of the forward buffer, or else of the Report
Queue. -/
def Link.start (l : Link) : Link :=
  match l.transmitter with
  | .idle =>
    if l.forward ≠ [] then { l with transmitter := .forwarding }
    else if l.reports ≠ [] then { l with transmitter := .reporting }
    else l
  | _ => l

/-- R171, R172: the link error count rises by one, holding at 255. -/
def Link.countError (l : Link) : Link := { l with errors := if l.errors < 255 then l.errors + 1 else 255 }

/-- Room for `n` more telegrams in the Report Queue. -/
def State.reportRoom (s : State) (n : Nat) : Bool := decide (s.link.reports.length + n ≤ 16)

/-- Telegrams that enter the Report Queue together, or are all discarded with the report-loss flag
set (R173). -/
def State.report (s : State) (ts : List Telegram) : State :=
  if s.reportRoom ts.length then
    s.setLink { s.link with reports := s.link.reports ++ ts }.start
  else s.setLoss true

/-- The node address as a telegram byte. -/
def State.nodeByte (s : State) : Byte := s.node.setWidth 8

/-- R170: a note goes to the report node in force. -/
def State.noteTelegram (s : State) (n : Note) : Telegram :=
  ⟨s.reportNode, s.nodeByte, n.kind, n.payload⟩

/-- R173: a note made by a part with node address 31 is discarded as it is made. -/
def State.emit (s : State) (n : Note) : State :=
  if s.node = 31 then s else s.report [s.noteTelegram n]

def State.emitAll (s : State) (ns : List Note) : State := ns.foldl State.emit s

/-- R174: one ANSWER telegram to the command's source. -/
def State.answerTelegram (s : State) (src kind : Byte) (code : Code) (detail : Byte)
    (body : List Byte) : Telegram :=
  ⟨src, s.nodeByte, kindAnswer, [kind, code.code, detail] ++ body⟩

/-- R174, R177: an answer without detail or body. -/
def State.answer (s : State) (src kind : Byte) (code : Code) : State :=
  s.report [s.answerTelegram src kind code 0 []]

/-- R173: a telegram joins the forward buffer, or is dropped with a link error when it is full. -/
def State.forward (s : State) (t : Telegram) : State :=
  if s.link.forward.length < 2 then
    s.setLink { s.link with forward := s.link.forward ++ [t] }.start
  else s.setLink s.link.countError

/-! ## The line state -/

/-- R160: a change of line state and its STATE_NOTE. -/
def State.changeLine (s : State) (new : LineState) (cause : StateCause) : State :=
  (s.setLine new).emit (.state s.line new cause s.position)

/-! ## Lane counters (R56) -/

inductive CounterKind where
  | entered | arrived | rejected | jammed | discarded
  deriving DecidableEq, Repr

def LaneCounters.advance (c : LaneCounters) : CounterKind → LaneCounters
  | .entered => { c with entered := c.entered + 1 }
  | .arrived => { c with arrived := c.arrived + 1 }
  | .rejected => { c with rejected := c.rejected + 1 }
  | .jammed => { c with jammed := c.jammed + 1 }
  | .discarded => { c with discarded := c.discarded + 1 }

def State.count (s : State) (k : Lane) (c : CounterKind) : State :=
  s.setCounters k ((s.track.counters[k]).advance c)

/-! ## Tally credits (R131 to R134) -/

/-- R134: a counter holds at 16,777,215; the flag tells that part of the credit was lost. -/
def satAdd (c n : Nat) : Nat × Bool := if 16777215 < c + n then (16777215, true) else (c + n, false)

def TallyRow.credit (r : TallyRow) (pieces stackCount rejects : Nat) : TallyRow :=
  let a := satAdd r.pieces pieces
  let b := satAdd r.stackCount stackCount
  let c := satAdd r.rejects rejects
  ⟨a.1, b.1, c.1, r.saturated || a.2 || b.2 || c.2⟩

/-- R130: key order, by group and then by article. -/
def Key.rank (k : Key) : Nat := k.group.1 * 64 + k.article.1

/-- A new row takes its place in key order (R133). -/
def insertRow (key : Key) (row : TallyRow) : List (Key × TallyRow) → List (Key × TallyRow)
  | [] => [(key, row)]
  | (k, r) :: rest =>
    if key.rank < k.rank then (key, row) :: (k, r) :: rest else (k, r) :: insertRow key row rest

/-- R133: a credit goes to its key's row, to a new row, or with 128 keyed rows to the overflow row. -/
def Tally.credit (t : Tally) (key : Key) (pieces stackCount rejects : Nat) : Tally :=
  if t.live.any (fun x => x.1 = key) then
    { t with live := t.live.map (fun x =>
        if x.1 = key then (x.1, x.2.credit pieces stackCount rejects) else x) }
  else if t.live.length < 128 then
    { t with live := insertRow key (TallyRow.zero.credit pieces stackCount rejects) t.live }
  else { t with overflow := t.overflow.credit pieces stackCount rejects }

def State.credit (s : State) (key : Key) (pieces stackCount rejects : Nat) : State :=
  s.setTally (s.tally.credit key pieces stackCount rejects)

/-! ## The Fire Schedule (R79, R81, R90) -/

/-- R79: an entry takes its place by wrap distance from the Line Position, behind entries at its own
position (entry 29). -/
def insertEntry (now : Pos) (e : FireEntry) : List FireEntry → List FireEntry
  | [] => [e]
  | x :: rest =>
    if wrapDist now e.pos < wrapDist now x.pos then e :: x :: rest
    else x :: insertEntry now e rest

def State.insertEntry (s : State) (e : FireEntry) : State :=
  s.setEntries (Sys2Proof.Machine.insertEntry s.position e s.sched.entries)

/-- R81: an entry on the diverter output of lane `k`, with no reservation test. An enabled lane has
a diverter output (R148, R154), so the other case does not arise. -/
def State.bookDiverter (s : State) (k : Lane) (t : Tag) (kind : FireKind) (p : Pos) : State :=
  match (s.map.diverters[k]).output with
  | some o => s.insertEntry ⟨p, kind, o, t⟩
  | none => s

def FireKind.isFold : FireKind → Bool
  | .fold _ => true
  | _ => false

/-- R90: the record's FOLD entries are removed unfired. -/
def State.cancelFolds (s : State) (t : Tag) : State :=
  s.setEntries (s.sched.entries.filter (fun e => !(decide (e.tag = t) && e.kind.isFold)))

/-- R50, R90: everything the record still owns is removed unfired. -/
def State.cancelAll (s : State) (t : Tag) : State :=
  s.setEntries (s.sched.entries.filter (fun e => decide (e.tag ≠ t)))

/-- R33, R42: where a lane's diverter opens ahead of a packet with head reference `r`. -/
def State.openAt (s : State) (k : Lane) (r : Pos) : Pos :=
  let d := s.map.diverters[k]
  minus (plus r d.dist) d.openLead

/-- R41, R42, R52: where it closes behind a packet whose tail was at the measuring line at `tail`. -/
def State.closeAt (s : State) (k : Lane) (tail : Pos) : Pos :=
  let d := s.map.diverters[k]
  plus (plus tail d.dist) d.closeTrail

/-! ## Stacks (R109, R115, R116, R128) -/

/-- A count of at most 65,535 that holds there (R108, R114). -/
def holdAt65535 (n : Nat) : Nat := if n ≤ 65535 then n else 65535

/-- R109: the stack that a piece opens. -/
def Stacker.openWith (st : Stacker) (p : Piece) : OpenStack :=
  { key := p.key
    pieces := 1
    strays := if p.stray then 1 else 0
    target := if st.override ≠ 0 then st.override else p.target
    batchStart := p.startsBatch }

/-- R115, step 3: what a close leaves of the stacker. -/
def Stacker.closed (st : Stacker) (phase : Phase) : Stacker :=
  { st with phase := phase, stack := none, serial := st.serial + 1, unplaced := 0 }

/-- R115: a close of a non-empty stack, whole; `phase` is OFFERED but for LINE_RESET. -/
def State.closeStack (s : State) (k : Lane) (cause : CloseCause) (phase : Phase) : State :=
  let st := s.stackers[k]
  match st.stack with
  | none => s
  | some o =>
    (((s.emit (.stackDone k st.serial o.key o.pieces o.strays o.target o.batchStart cause
        st.unplaced)).credit o.key o.pieces 1 0).setStacker k (st.closed phase))

/-- R116: the shelf's pieces open the new stack as the stacker passes to COLLECTING. -/
def Stacker.released (st : Stacker) : Stacker :=
  match st.shelf with
  | [] => { st with phase := .collecting }
  | p :: rest =>
    let o := st.openWith p
    { st with
      phase := .collecting
      shelf := []
      stack := some { o with
        pieces := o.pieces + rest.length
        strays := o.strays + rest.countP (fun x => x.stray) } }

/-- R128: in DRAIN with no live record, a stacker in COLLECTING with a non-empty stack closes it. -/
def State.drainClose (s : State) (k : Lane) : State :=
  let st := s.stackers[k]
  if s.line = .drain ∧ s.tableEmpty ∧ st.phase = .collecting ∧ st.stack.isSome then
    s.closeStack k .drain .offered
  else s

/-- R128 for the four stackers, in lane order (entry 24). -/
def State.drainCloses (s : State) : State := allLanes.foldl State.drainClose s

/-! ## Retirement (R50) -/

/-- The next live record of the lane behind `t` in the entry order. -/
def State.nextOfLane (s : State) (t : Tag) (k : Lane) : Option Tag :=
  (s.track.order.dropWhile (fun x => decide (x ≠ t))).tail.find?
    (fun x => (s.record x).any (fun r => r.lane = k))

/-- R50: whether a starts_batch flag passes on at this fate. -/
def Fate.passesBatch : Fate → Bool
  | .rejected => true
  | .jammed => true
  | .arrived => false
  | .discarded => false

def State.passBatch (s : State) (t : Tag) (r : ItemRecord) (fate : Fate) : State :=
  if r.startsBatch && fate.passesBatch then
    match s.nextOfLane t r.lane with
    | none => s
    | some n =>
      match s.record n with
      | none => s
      | some x => s.setRecord n { x with startsBatch := true }
  else s

/-- The slot is free and the tag leaves the entry order. -/
def State.freeSlot (s : State) (t : Tag) : State :=
  s.setTrack { s.track with
    slots := upd s.track.slots t none
    order := s.track.order.filter (fun x => decide (x ≠ t)) }

def Fate.counter : Fate → CounterKind
  | .arrived => .arrived
  | .rejected => .rejected
  | .jammed => .jammed
  | .discarded => .discarded

/-- R50: a live record is retired, and the fate counter of its lane advances (R47 to R49, R57). -/
def State.retire (s : State) (t : Tag) (r : ItemRecord) (fate : Fate) : State :=
  (((s.passBatch t r fate).freeSlot t).cancelAll t).count r.lane fate.counter

/-! ## Lane faults (R51, R52, R120, R166) -/

/-- R51: the record is one that the conversion of lane `k` looks at. -/
def State.convertible (s : State) (k : Lane) (r : ItemRecord) : Bool :=
  decide (r.lane = k) && decide (r.state ≠ .diverting) && r.reason.isNone
    && ahead s.position (s.openAt k r.headRef)

/-- PENDING steps become CANCELLED. -/
def cancelPending (steps : List FoldStep) : List FoldStep :=
  steps.map (fun x => if x.status = .pending then { x with status := .cancelled } else x)

/-- Every step becomes CANCELLED (R42, R43, R71). -/
def cancelEvery (steps : List FoldStep) : List FoldStep :=
  steps.map (fun x => { x with status := .cancelled })

/-- R52: the record turns off the belt, over the span its present head and length give. -/
def State.convertRecord (s : State) (k : Lane) (t : Tag) (r : ItemRecord) : State :=
  let r' := { r with steps := cancelPending r.steps, reason := some .laneStopped }
  let s' := ((s.cancelFolds t).setRecord t r').bookDiverter k t .divertOpen (s.openAt k r.headRef)
  match r.curLen with
  | none => s'
  | some n =>
    (s'.setRecord t { r' with state := .diverting }).bookDiverter k t .divertClose
      (s.closeAt k (plus r.headRef n))

def State.convertOne (k : Lane) (s : State) (t : Tag) : State :=
  match s.record t with
  | none => s
  | some r => if s.convertible k r then s.convertRecord k t r else s

/-- R51: the lane-stop conversion of lane `k`, record by record in the entry order. -/
def State.convertLane (s : State) (k : Lane) : State :=
  s.track.order.foldl (State.convertOne k) s

/-- R120: entering STOPPED; a stacker already STOPPED is unchanged. -/
def Stacker.stop (st : Stacker) : Stacker :=
  if st.phase = .stopped then st
  else { st with phase := .stopped, timer := none, pausePending := false }

/-- R166: the note, the stacker's stop, the conversion. -/
def State.stopLane (s : State) (k : Lane) (kind : FaultKind) (p : Pos) : State :=
  let s := s.emit (.fault k kind p)
  (s.setStacker k (s.stackers[k]).stop).convertLane k

/-- The position that the note of a JAM carries: the present one, which is the jam position of R166 where an advance
has met the wait; for a record that was overdue already R48 and R166 differ, and it is free (entry 15). -/
def State.jamNoteAt (s : State) (r : ItemRecord) : Pos :=
  match s.jamPosition r with
  | none => s.position
  | some p => if p = s.position ∨ Config.lateJamNote p s.position = true then s.position else p

/-- R48: the record is retired JAMMED (with the drain closes of R128 where it was the last, entry
12), the counter advances, and the lane fault is raised. -/
def State.jamRecord (s : State) (k : Lane) (t : Tag) (r : ItemRecord) : State :=
  ((s.retire t r .jammed).drainCloses).stopLane k .jam (s.jamNoteAt r)

/-- R46, R48: while the oldest TO_STACK record of the lane has a jam position that is not ahead, it
jams. A jam retires a record, so 24 rounds always suffice. -/
def State.jamOverdue : Nat → Lane → State → State
  | 0, _, s => s
  | n + 1, k, s =>
    match s.oldest k .toStack with
    | none => s
    | some t =>
      match s.record t with
      | none => s
      | some r =>
        match s.jamPosition r with
        | none => s
        | some p => if ahead s.position p then s else State.jamOverdue n k (s.jamRecord k t r)

/-- R46: the jam wait passes to the lane's oldest TO_STACK record, which jams at once if overdue. -/
def State.passJamWait (s : State) (k : Lane) : State := State.jamOverdue 24 k s

/-- R46: a record takes the jam wait as it becomes the lane's oldest in TO_STACK. While the oldest is the one it
was, `old`, the wait stays on it, and its JAM is an event of its own (R4). -/
def State.passJamWaitFrom (s : State) (k : Lane) (old : Option Tag) : State :=
  if s.oldest k .toStack = old then s else s.passJamWait k

/-- R166: a lane fault other than JAM; the jam wait passes on where the conversion took its record (R46, R52). -/
def State.raiseFault (s : State) (k : Lane) (kind : FaultKind) (p : Pos) : State :=
  (s.stopLane k kind p).passJamWaitFrom k (s.oldest k .toStack)

/-- R43, R45, R46: record `t`, as `r`, goes to its stacker, and takes the jam wait where it becomes the lane's oldest
in TO_STACK. -/
def State.toStack (s : State) (k : Lane) (t : Tag) (r : ItemRecord) : State :=
  (s.setRecord t { r with
    state := .toStack
    expected := some (plus r.headRef s.map.params.stackDist) }).passJamWaitFrom k (s.oldest k .toStack)

/-! ## Output releases -/

/-- R106, R107: hold clear, timer stopped, count 0. -/
def OutputRecord.released (o : OutputRecord) : OutputRecord :=
  { o with hold := false, timer := none, openCount := 0 }

def State.releaseOutputs (s : State) : State :=
  s.setOuts (tabulate fun o => (s.outs[o]).released)

end Sys2Proof.Machine
end

