-- ==== Sys2Proof/Machine/Admission.lean ====
section
/-! DEFINITION. The Admission Unit (chapter 2): ANNOUNCE, SEPARATOR, ANNOUNCE_EXPIRY, and what a leading edge draws
from the queue and the tables. -/

namespace Sys2Proof.Machine

/-! ## Loss notes (R20) -/

/-- The note for an entry that was queued: its own stamp, the present position. -/
def State.lostNote (s : State) (k : Lane) (cause : LostCause) (e : QueueEntry) : Note :=
  match e with
  | .announce a c stamp =>
    .lost (byteOf k) cause .announce (some (byteOf a)) (some c) stamp s.position
  | .separator stamp => .lost (byteOf k) cause .separator none none stamp s.position

def State.emitLost (k : Lane) (cause : LostCause) (s : State) (e : QueueEntry) : State :=
  s.emit (s.lostNote k cause e)

/-! ## Expiry (R21, R22) -/

/-- The entries at the head whose expiry position is the present position. -/
def State.expiredHeads (s : State) (q : List QueueEntry) : List QueueEntry :=
  q.takeWhile (fun e => decide (s.expiryOf e = s.position))

/-- R21, R22: heads whose expiry position equals the Line Position are removed, head first, one note
each. -/
def State.expireHeads (s : State) (k : Lane) : State :=
  let q := s.queues[k]
  (s.setQueue k (q.dropWhile (fun e => decide (s.expiryOf e = s.position)))
    |> (s.expiredHeads q).foldl (State.emitLost k .expired))

/-- ANNOUNCE_EXPIRY (R21, R22). When the head of lane `k`'s queue is due at the present position it
leaves with an EXPIRED note, and so does every entry behind it that is due there; with no head due
the event does not occur (entry 4). -/
def execAnnounceExpiry (k : Lane) (s : State) : Result := whenUp s (fun s => s.expireHeads k)

/-! ## Arriving announcements (R18, R19) -/

/-- R20: the lane of a loss note of a telegram: as received, or 255 when it is too short. -/
def lostLane (p : List Byte) : Byte := p.head?.getD 255

/-- R20, entry 18: the article, where the telegram is long enough to carry it. -/
def lostArticle : List Byte → Option Byte
  | _ :: a :: _ => some a
  | _ => none

/-- R20, entry 18: the customer id, likewise. -/
def lostCustomer : List Byte → Option CustomerId
  | _ :: _ :: hi :: lo :: _ => some (word16Bits hi lo)
  | _ => none

/-- A refused telegram is reported with the Line Position at refusal as its stamp. -/
def State.refuseEntry (s : State) (cause : LostCause) (kind : EntryKind) (p : List Byte) : State :=
  match kind with
  | .announce =>
    s.emit (.lost (lostLane p) cause .announce (lostArticle p) (lostCustomer p) s.position s.position)
  | .separator => s.emit (.lost (lostLane p) cause .separator none none s.position s.position)

/-- R19, check 1: the lane and the new entry that the payload spells, with the present stamp. -/
def entryOf (kind : EntryKind) (stamp : Pos) (p : List Byte) : Option (Lane × QueueEntry) :=
  match kind, p with
  | .announce, [l, a, hi, lo] =>
    match byteFin 4 l, byteFin 64 a with
    | some k, some art => some (k, .announce art (word16Bits hi lo) stamp)
    | _, _ => none
  | .separator, [l] => (byteFin 4 l).map (fun k => (k, .separator stamp))
  | _, _ => none

/-- R18, R19: the checks in their order, then a new entry at the tail of its lane's queue. -/
def State.takeEntry (s : State) (kind : EntryKind) (p : List Byte) : State :=
  match entryOf kind s.position p with
  | none => s.refuseEntry .malformed kind p
  | some (k, e) =>
    if !s.line.runs then s.refuseEntry .notRunning kind p
    else if !s.enabled k then s.refuseEntry .laneOff kind p
    else if 8 ≤ (s.queues[k]).length then s.refuseEntry .queueFull kind p
    else s.setQueue k (s.queues[k] ++ [e])

/-- ANNOUNCE (R18, R19). -/
def execAnnounce (src : Byte) (p : List Byte) (s : State) : Result :=
  whenAddressed src s (fun s => s.takeEntry .announce p)

/-- SEPARATOR (R18, R19). -/
def execSeparator (src : Byte) (p : List Byte) (s : State) : Result :=
  whenAddressed src s (fun s => s.takeEntry .separator p)

/-! ## Binding (R23 to R32) -/

def QueueEntry.isSeparator : QueueEntry → Bool
  | .separator _ => true
  | .announce .. => false

/-- What a binding takes from a queue (R24 to R26). -/
structure Bound where
  /-- The separators at the head. -/
  separators : List QueueEntry
  /-- The announcement bound, if any. -/
  entry : Option QueueEntry
  /-- What stays. -/
  rest : List QueueEntry
  deriving DecidableEq, Repr

/-- R24, R25: the separators at the head leave, then the head announcement. -/
def bindQueue (q : List QueueEntry) : Bound :=
  let rest := q.dropWhile QueueEntry.isSeparator
  ⟨q.takeWhile QueueEntry.isSeparator, rest.head?, rest.tail⟩

/-- R28: the first valid entry that agrees with the id in every place its mask marks; else group 0. -/
def resolveGroup (m : Vector (Option CustomerEntry) 16) (c : CustomerId) : Group :=
  match (m.toList.filterMap id).find? (fun e => decide (c &&& e.mask = e.base &&& e.mask)) with
  | some e => e.group
  | none => 0

/-- R30: a plan step as it is copied into a record. -/
def PlanStep.copy (p : PlanStep) : FoldStep := ⟨p.station, p.num, p.den, p.trim, none, none, .pending⟩

/-- R29 to R31: route, min, max, target and steps of the record, as copied from the tables. -/
def State.copyRow (s : State) (a : Article) : Route × Nat × Nat × Nat × List FoldStep :=
  match s.setup.articles[a] with
  | none => (.reject, 1, 4095, 4, [])
  | some row =>
    (row.route, row.min, row.max, row.target,
      if row.route = .stack then ((s.setup.plans[row.plan]).getD []).map PlanStep.copy else [])

/-- R26, R31, R32: the reason that a binding sets, the first of the list that applies. -/
def State.bindReason (s : State) (k : Lane) (anonymous : Bool) (route : Route) : Option Reason :=
  if (s.stackers[k]).phase = .stopped then some .laneStopped
  else if anonymous && decide (s.lanePlan.policy = .reject) then some .anonymous
  else if route = .reject then some .articleOff
  else none

/-- R24 to R32, R37: the record of a leading edge on lane `k` at position `p`, bound to `b`. -/
def State.boundRecord (s : State) (k : Lane) (p : Pos) (b : Bound) : ItemRecord :=
  let anonymous := b.entry.isNone
  let (article, customer) :=
    match b.entry with
    | some (.announce a c _) => (a, some c)
    | _ => (s.lanePlan.default, none)
  let (route, min, max, target, steps) := s.copyRow article
  { lane := k
    state := .entering
    article := article
    customer := customer
    group := match customer with
      | some c => resolveGroup s.setup.customers c
      | none => 0
    anonymous := anonymous
    startsBatch := !b.separators.isEmpty
    route := route
    reason := s.bindReason k anonymous route
    lead := p
    trail := none
    len := none
    min := min
    max := max
    target := target
    steps := steps
    headRef := p
    curLen := none
    expected := none
    overWait := some (plus p 4096) }

/-- R23: with no record made, the queue is consumed as at a binding, each entry with an UNTRACKED
note; R22 then applies to the new head. -/
def State.consumeUntracked (s : State) (k : Lane) : State :=
  let b := bindQueue s.queues[k]
  (((b.separators ++ b.entry.toList).foldl (State.emitLost k .untracked)
    (s.setQueue k b.rest)).expireHeads k)

/-! ## Emptying the queues (R34, R35) -/

/-- R34: one lane's queue is emptied, head first, with DRAINED notes. -/
def State.drainQueue (s : State) (k : Lane) : State :=
  (s.queues[k]).foldl (State.emitLost k .drained) (s.setQueue k [])

/-- R34: in lane order. -/
def State.drainQueues (s : State) : State := allLanes.foldl State.drainQueue s

end Sys2Proof.Machine
end

