-- ==== Sys2Proof/Machine/Stacking.lean ====
section
/-! DEFINITION. The Stacker Units (chapter 7): arrivals, the discharge handshake, STACK_CMD and CLEAR_LANE. -/

namespace Sys2Proof.Machine

/-! ## Arrivals (R47, R110 to R114) -/

/-- What the Tracking Table answers to an arrival (R110): a matched piece, or a stray. -/
structure Arrival where
  /-- The record's key; a stray has none of its own. -/
  key : Option Key
  startsBatch : Bool
  target : Nat
  deriving DecidableEq, Repr

/-- R110: a stray's flag is clear and its target 255. -/
def Arrival.stray : Arrival := ⟨none, false, 255⟩

def ItemRecord.arrival (r : ItemRecord) : Arrival := ⟨some r.key, r.startsBatch, r.target⟩

/-- R110: the key of a stray that opens a stack or joins an empty shelf. -/
def strayKey : Key := ⟨0, 63⟩

/-- The piece that an arrival brings where the pieces it joins have key `there`. -/
def Arrival.piece (a : Arrival) (there : Option Key) : Piece :=
  ⟨a.key.getD (there.getD strayKey), a.startsBatch, a.target, a.key.isNone⟩

/-- One more piece on an open stack (R111, R114). -/
def OpenStack.add (o : OpenStack) (a : Arrival) : OpenStack :=
  { o with pieces := o.pieces + 1, strays := o.strays + (if a.key.isNone then 1 else 0) }

/-- R112: the piece can join the shelf for its key and boundary. -/
def Stacker.joins (st : Stacker) (a : Arrival) : Bool :=
  match st.shelf with
  | [] => true
  | p :: _ => (a.key.isNone || decide (a.key = some p.key)) && !a.startsBatch

/-- R112: the arrival at the tail of the shelf. -/
def Stacker.shelve (st : Stacker) (a : Arrival) : Stacker :=
  { st with shelf := st.shelf ++ [a.piece ((st.shelf.head?).map (fun p => p.key))] }

/-- R113: the piece is unplaced and the lane stops. -/
def State.shelfFault (s : State) (k : Lane) (kind : FaultKind) (p : Pos) : State :=
  (s.setStacker k { s.stackers[k] with unplaced := holdAt65535 ((s.stackers[k]).unplaced + 1) }).raiseFault
    k kind p

/-- R112: the shelf takes the arrival, or the lane stops (R113). -/
def State.shelveArrival (s : State) (k : Lane) (a : Arrival) (p : Pos) : State :=
  let st := s.stackers[k]
  if s.shelfCap k ≤ st.shelf.length then s.shelfFault k .shelfOverflow p
  else if !st.joins a then s.shelfFault k .shelfMix p
  else s.setStacker k (st.shelve a)

/-- R109: the arrival opens the empty stack. -/
def State.openStack (s : State) (k : Lane) (a : Arrival) : State :=
  let st := s.stackers[k]
  s.setStacker k { st with stack := some (st.openWith (a.piece none)) }

/-- R111: one more piece; the stack closes when it reaches its target. -/
def State.addCollecting (s : State) (k : Lane) (o : OpenStack) (a : Arrival) : State :=
  let o' := o.add a
  let s' := s.setStacker k { s.stackers[k] with stack := some o' }
  if o'.pieces = o'.target then s'.closeStack k .target .offered else s'

/-- R111. -/
def State.arriveCollecting (s : State) (k : Lane) (a : Arrival) (p : Pos) : State :=
  match (s.stackers[k]).stack with
  | none => s.openStack k a
  | some o =>
    if a.startsBatch then (s.closeStack k .separator .offered).shelveArrival k a p
    else if a.key.isSome ∧ a.key ≠ some o.key then
      (s.closeStack k .batch .offered).shelveArrival k a p
    else s.addCollecting k o a

/-- R114. -/
def State.arriveStopped (s : State) (k : Lane) (a : Arrival) : State :=
  let st := s.stackers[k]
  match st.stack with
  | none => s.openStack k a
  | some o =>
    if o.pieces < 65535 then s.setStacker k { st with stack := some (o.add a) }
    else s.setStacker k { st with unplaced := holdAt65535 (st.unplaced + 1) }

/-- Section 7.2: what the stacker does with an arrival depends on its phase alone. -/
def State.arrive (s : State) (k : Lane) (a : Arrival) (p : Pos) : State :=
  match (s.stackers[k]).phase with
  | .collecting => s.arriveCollecting k a p
  | .offered => s.shelveArrival k a p
  | .lowering => s.shelveArrival k a p
  | .paused => s.shelveArrival k a p
  | .stopped => s.arriveStopped k a

/-- R47: the record that an arrival at `p` matches: the lane's oldest in TO_STACK, if `p` is within its
window. -/
def State.matchFor (s : State) (k : Lane) (p : Pos) : Option (Tag × ItemRecord) :=
  match s.oldest k .toStack with
  | none => none
  | some t =>
    match s.record t with
    | none => none
    | some r =>
      if r.expected.any (fun x => inWindow x s.map.params.tol p) then some (t, r) else none

/-- R47, R110: the arrival's record is retired ARRIVED, or the arrival is a stray, whose STRAY note comes before the
notes of its count; then the stacker acts (entry 13). -/
def State.offerArrival (s : State) (k : Lane) (p : Pos) : State :=
  match s.matchFor k p with
  | some (t, r) => (s.retire t r .arrived).arrive k r.arrival p
  | none => (s.emit (.fault k .stray p)).arrive k .stray p

/-- An arrival handed to lane `k`'s stacker (R16, R47). A jam wait that stands at the present position
is met first (R47, entry 14); afterwards the jam wait passes on (R46) and drain closes are taken
(R128). -/
def State.arrival (s : State) (k : Lane) (p : Pos) : State :=
  (((s.passJamWait k).offerArrival k p).passJamWait k).drainCloses

/-! ## The discharge handshake (R117 to R119) -/

/-- R117: handshake edges are taken in RUN and DRAIN when the lane is enabled. -/
def State.takesHandshake (s : State) (k : Lane) : Bool := s.line.runs && s.enabled k

/-- R117, R118, R167: an edge in a phase that does not take it. -/
def State.warnHandshake (s : State) (k : Lane) : State := s.emit (.fault k .handshake s.position)

/-- R117: OFFERED to LOWERING with the discharge timer started. -/
def State.sackRise (s : State) (k : Lane) : State :=
  let st := s.stackers[k]
  if !s.takesHandshake k then s
  else if st.phase = .offered then
    s.setStacker k { st with phase := .lowering, timer := some (64 * s.map.timeoutFor k) }
  else s.warnHandshake k

/-- SACK_RISE (R117). -/
def execSackRise (k : Lane) (s : State) : Result := whenUp s (fun s => s.sackRise k)

/-- R118: the end of a discharge; PAUSED keeps the shelf. -/
def Stacker.dischargeDone (st : Stacker) : Stacker :=
  let st := { st with timer := none }
  if st.pausePending then { st with phase := .paused, pausePending := false } else st.released

def State.sclrRise (s : State) (k : Lane) : State :=
  let st := s.stackers[k]
  if !s.takesHandshake k then s
  else if st.phase = .lowering then (s.setStacker k st.dischargeDone).drainCloses
  else s.warnHandshake k

/-- SCLR_RISE (R118, R116, R128). -/
def execSclrRise (k : Lane) (s : State) : Result := whenUp s (fun s => s.sclrRise k)

/-- R119: the discharge timer of a stacker in LOWERING expires, once its n-th tick has been counted (R7). -/
def State.dischargeTimeout (s : State) (k : Lane) : State :=
  if (s.stackers[k]).phase = .lowering ∧ (s.stackers[k]).timer = some 0 then s.raiseFault k .dischargeTimeout s.position else s

/-- DISCHARGE_TIMEOUT (R7, R119). With no expiry due the event does not occur (entry 5). -/
def execDischargeTimeout (k : Lane) (s : State) : Result := whenUp s (fun s => s.dischargeTimeout k)

/-! ## STACK_CMD (R121 to R125) -/

inductive StackOp where
  | close | stop | stopAfter | resume | target
  deriving DecidableEq, Repr

/-- R175. -/
def byteStackOp (b : Byte) : Option StackOp :=
  if b = 0 then some .close else if b = 1 then some .stop else if b = 2 then some .stopAfter
  else if b = 3 then some .resume else if b = 4 then some .target else none

/-- R122. -/
def State.stackClose (s : State) (k : Lane) : State :=
  if (s.stackers[k]).phase = .collecting then s.closeStack k .command .offered else s

/-- R123: pause pending, or PAUSED at once where the stack is empty in COLLECTING. -/
def Stacker.pause (st : Stacker) : Stacker :=
  match st.phase with
  | .collecting => if st.stack.isSome then { st with pausePending := true } else { st with phase := .paused }
  | .offered => { st with pausePending := true }
  | .lowering => { st with pausePending := true }
  | .paused => st
  | .stopped => st

/-- R123, STOP_AFTER. -/
def State.stackStopAfter (s : State) (k : Lane) : State := s.setStacker k (s.stackers[k]).pause

/-- R123, STOP: an open stack in COLLECTING closes with cause COMMAND and pause pending is set. -/
def State.stackStop (s : State) (k : Lane) : State :=
  if (s.stackers[k]).phase = .collecting ∧ (s.stackers[k]).stack.isSome then
    (s.closeStack k .command .offered).stackStopAfter k
  else s.stackStopAfter k

/-- R124: PAUSED to COLLECTING with the shelf released. -/
def State.stackResume (s : State) (k : Lane) : State :=
  (s.setStacker k (s.stackers[k]).released).drainCloses

/-- R125: the override that a value sets. -/
def overrideFor (value : Byte) : Nat := if value = 0 then 0 else if value.toNat < 4 then 4 else value.toNat

/-- R125: 1 to 3 are brought into range. -/
def overrideCode (value : Byte) : Code := if value ≠ 0 ∧ value.toNat < 4 then .clamped else .accepted

def State.stackTarget (s : State) (k : Lane) (value : Byte) : State :=
  s.setStacker k { s.stackers[k] with override := overrideFor value }

/-- R122 to R125: a command that passed its checks, with its answer after its notes (R174). -/
def State.stackDo (s : State) (src : Byte) (k : Lane) (op : StackOp) (value : Byte) : State :=
  match op with
  | .close => (s.stackClose k).answer src kindStackCmd .accepted
  | .stop => (s.stackStop k).answer src kindStackCmd .accepted
  | .stopAfter => (s.stackStopAfter k).answer src kindStackCmd .accepted
  | .resume =>
    if (s.stackers[k]).phase = .paused then (s.stackResume k).answer src kindStackCmd .accepted
    else s.answer src kindStackCmd .wrongState
  | .target => (s.stackTarget k value).answer src kindStackCmd (overrideCode value)

/-- R121: the checks in their order. -/
def State.stackCmd (s : State) (src lane : Byte) (op : StackOp) (value : Byte) : State :=
  match byteFin 4 lane with
  | none => s.answer src kindStackCmd .invalid
  | some k =>
    if !s.line.runs then s.answer src kindStackCmd .wrongState
    else if !s.enabled k then s.answer src kindStackCmd .invalid
    else if (s.stackers[k]).phase = .stopped ∧ op ≠ .target then s.answer src kindStackCmd .wrongState
    else s.stackDo src k op value

/-- STACK_CMD with operation CLOSE (R122). -/
def execStackCmdClose (src lane value : Byte) (s : State) : Result :=
  whenAddressed src s (fun s => s.stackCmd src lane .close value)

/-- STACK_CMD with operation STOP (R123). -/
def execStackCmdStop (src lane value : Byte) (s : State) : Result :=
  whenAddressed src s (fun s => s.stackCmd src lane .stop value)

/-- STACK_CMD with operation STOP_AFTER (R123). -/
def execStackCmdStopAfter (src lane value : Byte) (s : State) : Result :=
  whenAddressed src s (fun s => s.stackCmd src lane .stopAfter value)

/-- STACK_CMD with operation RESUME (R124). -/
def execStackCmdResume (src lane value : Byte) (s : State) : Result :=
  whenAddressed src s (fun s => s.stackCmd src lane .resume value)

/-- STACK_CMD with operation TARGET (R125). -/
def execStackCmdTarget (src lane value : Byte) (s : State) : Result :=
  whenAddressed src s (fun s => s.stackCmd src lane .target value)

/-- R121: a STACK_CMD telegram of any payload. -/
def State.stackCmdTelegram (s : State) (src : Byte) (p : List Byte) : State :=
  match p with
  | [lane, op, value] =>
    match byteStackOp op with
    | some op => s.stackCmd src lane op value
    | none => s.answer src kindStackCmd .invalid
  | _ => s.answer src kindStackCmd .invalid

/-! ## CLEAR_LANE (R126) -/

/-- The shelf is emptied into unplaced, which holds at 65,535 (R126, R129, R108). -/
def Stacker.dumpShelf (st : Stacker) : Stacker :=
  { st with shelf := [], unplaced := holdAt65535 (st.unplaced + st.shelf.length) }

/-- R126: the shelf goes into unplaced, then a non-empty stack closes, or the empty stacker collects. -/
def State.clearStopped (s : State) (k : Lane) : State :=
  let st := (s.stackers[k]).dumpShelf
  if st.stack.isSome then (s.setStacker k st).closeStack k .faultClear .offered
  else s.setStacker k { st with phase := .collecting }

/-- R126: the checks in their order. -/
def State.clearLane (s : State) (src : Byte) (p : List Byte) : State :=
  match p with
  | [lane] =>
    match byteFin 4 lane with
    | none => s.answer src kindClearLane .invalid
    | some k =>
      if !s.line.runs then s.answer src kindClearLane .wrongState
      else if !s.enabled k then s.answer src kindClearLane .invalid
      else if (s.stackers[k]).phase ≠ .stopped then s.answer src kindClearLane .wrongState
      else (s.clearStopped k).answer src kindClearLane .accepted
  | _ => s.answer src kindClearLane .invalid

/-- CLEAR_LANE (R126). -/
def execClearLane (src : Byte) (p : List Byte) (s : State) : Result :=
  whenAddressed src s (fun s => s.clearLane src p)

end Sys2Proof.Machine
end

