-- ==== Sys2Proof/Machine/Line.lean ====
section
/-! DEFINITION. Line Control (chapter 10): LINE_MODE, DRAIN_COMPLETION, LINE_RESET, STATUS_READ, and the resets
COLD_RESET and RST_FALLS. -/

namespace Sys2Proof.Machine

/-! ## Broadcasts (R172, R173) -/

/-- R172: a telegram to node 31 that is acted on and forwarded. Which of the two comes first at the
transmitter is left open by R173 and drawn from `Config.forwardFirst` (entry 10). -/
def State.broadcast (s : State) (t : Telegram) (act : State → State) : State :=
  let s' := s.setFreeIndex (s.freeIndex + 1)
  if Config.forwardFirst s.freeIndex then act (s'.forward t) else (act s').forward t

/-- R172, line 1: a part with address 0 to 30 removes a telegram of its own. -/
def State.ownTelegram (s : State) (src : Byte) : Bool :=
  decide (s.node ≠ 31) && decide (src.toNat = s.node.toNat)

/-- A command row whose telegram is addressed to node 31. -/
def whenBroadcast (t : Telegram) (s : State) (act : State → State) : Result :=
  whenUp s (fun s => if s.ownTelegram t.src then s else s.broadcast t act)

/-! ## The end of a drain (R161, R162) -/

/-- R161, R162, R34, R160: a drain that is complete ends, with its DRAINED notes before its
STATE_NOTE. -/
def State.completeDrain (s : State) : State :=
  if s.line = .drain ∧ s.drainDone then (s.drainQueues).changeLine .ready .drainEnd else s

/-- DRAIN_COMPLETION (R161, R162). Outside DRAIN, or with a term of R161 unmet, the event does not
occur (entry 4). -/
def execDrainCompletion (s : State) : Result := whenUp s State.completeDrain

/-! ## LINE_MODE (R158 to R160) -/

/-- R158: the rows whose event is a LINE_MODE. -/
def LineState.modeRow : LineState → LineState → Bool
  | .ready, .run => true
  | .ready, .service => true
  | .service, .ready => true
  | .run, .drain => true
  | .drain, .run => true
  | _, _ => false

/-- R159: the move and its effects in the other blocks: entering DRAIN takes the drain closes (R128),
leaving SERVICE releases the outputs (R106). -/
def State.enterMode (s : State) (target : LineState) : State :=
  match target with
  | .drain => (s.setLine .drain).drainCloses
  | .ready => (s.setLine .ready).releaseOutputs
  | .run => s.setLine .run
  | .service => s.setLine .service
  | .init => s.setLine .init

/-- R159, R160: one LINE_MODE that makes a row; `reply` puts in the answer, where there is one. A drain
entered complete ends at once (R161, entry 17). -/
def State.moveLine (s : State) (target : LineState) (reply : State → State) : State :=
  ((reply (s.enterMode target)).emit (.state s.line target .mode s.position)).completeDrain

/-- R159: a well-formed LINE_MODE addressed to the part. -/
def State.lineMode (s : State) (src : Byte) (target : LineState) : State :=
  if s.line.modeRow target then
    s.moveLine target (fun s => s.answer src kindLineMode .accepted)
  else s.answer src kindLineMode .wrongState

/-- R159: a well-formed LINE_MODE addressed to node 31 is not answered. -/
def State.lineModeAll (target : LineState) (s : State) : State :=
  if s.line.modeRow target then s.moveLine target id else s

/-- R175: the telegram of a LINE_MODE broadcast. -/
def lineModeTelegram (src : Byte) (target : LineState) : Telegram := ⟨31, src, kindLineMode, [target.code]⟩

def lineModeRow (src : Byte) (bcast : Bool) (target : LineState) (s : State) : Result :=
  if bcast then whenBroadcast (lineModeTelegram src target) s (State.lineModeAll target)
  else whenAddressed src s (fun s => s.lineMode src target)

/-- LINE_MODE with target READY (R159). -/
def execLineModeReady (src : Byte) (bcast : Bool) (s : State) : Result := lineModeRow src bcast .ready s

/-- LINE_MODE with target RUN (R159). -/
def execLineModeRun (src : Byte) (bcast : Bool) (s : State) : Result := lineModeRow src bcast .run s

/-- LINE_MODE with target DRAIN (R159, R128, R161). -/
def execLineModeDrain (src : Byte) (bcast : Bool) (s : State) : Result := lineModeRow src bcast .drain s

/-- LINE_MODE with target SERVICE (R159). -/
def execLineModeService (src : Byte) (bcast : Bool) (s : State) : Result := lineModeRow src bcast .service s

/-- R159, R175: the target that a payload carries; INIT is no target. -/
def lineModeTarget (p : List Byte) : Option LineState :=
  match p with
  | [b] => if b = 0 then none else byteLineState b
  | _ => none

/-- R159: a LINE_MODE telegram of any payload, addressed to the part. -/
def State.lineModePayload (s : State) (src : Byte) (p : List Byte) : State :=
  match lineModeTarget p with
  | some target => s.lineMode src target
  | none => s.answer src kindLineMode .invalid

/-- R159: the same addressed to node 31. -/
def State.lineModePayloadAll (p : List Byte) (s : State) : State :=
  match lineModeTarget p with
  | some target => s.lineModeAll target
  | none => s

/-! ## LINE_RESET (R164, R57, R92, R107, R35, R129) -/

/-- R57: every record is retired DISCARDED. -/
def State.discardAll (s : State) : State :=
  s.setTrack
    { slots := Vector.replicate 24 none
      order := []
      counters := tabulate fun k =>
        { s.track.counters[k] with
          discarded := (s.track.counters[k]).discarded + BitVec.ofNat 24 (s.liveCount k) } }

/-- R129: what is left of a stacker after its close. -/
def Stacker.resetPhase (st : Stacker) : Stacker :=
  { st with phase := .collecting, pausePending := false, timer := none }

/-- R129: the shelf into unplaced, the close of a non-empty stack, COLLECTING. -/
def State.resetStacker (s : State) (k : Lane) : State :=
  let s := (s.setStacker k (s.stackers[k]).dumpShelf).closeStack k .lineReset .collecting
  s.setStacker k (s.stackers[k]).resetPhase

/-- R129, R164: the four stackers in lane order. -/
def State.resetStackers (s : State) : State := allLanes.foldl State.resetStacker s

/-- R164: the state that a LINE_RESET leaves the line in. -/
def State.lineAfterReset (s : State) : LineState := if s.setup.committed.isSome then .ready else .init

/-- R164: the effects in the blocks, up to the last STACK_DONE note. -/
def State.resetBlocks (s : State) : State :=
  (((((s.discardAll).setSched .cold).releaseOutputs).setQueues (Vector.replicate 4 [])).resetStackers)

/-- R164: one LINE_RESET; `reply` puts in the answer, where there is one. -/
def State.lineResetWith (s : State) (reply : State → State) : State :=
  let s' := (reply s.resetBlocks).setLine s.lineAfterReset
  if s.line = s.lineAfterReset then s'
  else s'.emit (.state s.line s.lineAfterReset .lineReset s.position)

/-- R164: a LINE_RESET addressed to the part. -/
def State.lineReset (s : State) (src : Byte) (p : List Byte) : State :=
  match p with
  | [] => s.lineResetWith (fun s => s.answer src kindLineReset .accepted)
  | _ => s.answer src kindLineReset .invalid

/-- R164: a LINE_RESET addressed to node 31 is not answered. -/
def State.lineResetAll (p : List Byte) (s : State) : State :=
  match p with
  | [] => s.lineResetWith id
  | _ => s

/-- LINE_RESET (R164). -/
def execLineReset (src : Byte) (bcast : Bool) (p : List Byte) (s : State) : Result :=
  if bcast then whenBroadcast ⟨31, src, kindLineReset, p⟩ s (State.lineResetAll p)
  else whenAddressed src s (fun s => s.lineReset src p)

/-! ## STATUS_READ (R168, R169, R177) -/

/-- R177: the three bytes of each lane counter. -/
def LaneCounters.bytes (c : LaneCounters) : List Byte :=
  posBytes c.entered ++ posBytes c.arrived ++ posBytes c.rejected ++ posBytes c.jammed
    ++ posBytes c.discarded

/-- R108: the pieces of the open stack, 0 while it is empty. -/
def Stacker.pieces (st : Stacker) : Nat := (st.stack.map (fun o => o.pieces)).getD 0

/-- R169, R177: the body of the answer. DESIGN CHOICE (entry 35): the rules encode neither yes and no, nor set and clear,
nor asserted and released; the byte is 1 for yes, set and asserted, and 0 for no, clear and released. -/
def State.statusBody (s : State) (k : Lane) : List Byte :=
  let st := s.stackers[k]
  [s.line.code, flagByte s.setup.committed.isSome, flagByte s.loss, byteOf s.link.errors, byteOf k,
   flagByte (s.enabled k), st.phase.code, flagByte st.pausePending]
    ++ bytes16 st.pieces
    ++ [byteOf st.shelf.length, flagByte (s.holdLevel k), byteOf (s.queues[k]).length,
        byteOf (s.liveCount k), byteOf st.override]
    ++ (s.track.counters[k]).bytes

/-- R168, R169: the report-loss flag is cleared as the answer enters the Report Queue. -/
def State.statusRead (s : State) (src : Byte) (p : List Byte) : State :=
  match p with
  | [lane] =>
    match byteFin 4 lane with
    | none => s.answer src kindStatusRead .invalid
    | some k =>
      (s.setLoss false).report [s.answerTelegram src kindStatusRead .accepted 0 (s.statusBody k)]
  | _ => s.answer src kindStatusRead .invalid

/-- STATUS_READ (R168, R169). -/
def execStatusRead (src : Byte) (p : List Byte) (s : State) : Result :=
  whenAddressed src s (fun s => s.statusRead src p)

/-! ## COLD_RESET and RST_FALLS (R165, R178) -/

/-- R13: a qualifier starts as its input stands. -/
def sampleQual {n : Nat} (levels : Vector Bool n) : Vector Qualifier n :=
  tabulate fun k => if levels[k] then .covered else .clear

/-- COLD_RESET (R165): every block starts from its cold-reset values, the straps and the sensor inputs
are sampled. The inputs' levels and the queue of commands are the environment's and stay. -/
def execColdReset (na : BitVec 5) (s : State) : Result :=
  .next { State.reset with
    pending := s.pending
    pins := { s.pins with rst := true }
    node := na
    unit := { PositionUnit.cold with
      lsQual := sampleQual s.pins.ls
      esQual := sampleQual s.pins.es }
    freeIndex := s.freeIndex }

/-- R178: a telegram being received or sent as RST falls is lost. -/
def Link.cut (l : Link) : Link :=
  { l with
    receiver := .hunt false
    forward := if l.transmitter = .forwarding then l.forward.tail else l.forward
    reports := if l.transmitter = .reporting then l.reports.tail else l.reports
    transmitter := .idle }

/-- RST_FALLS (R165, R178). The pin goes low, and until COLD_RESET the part takes no event; at a pin
already low nothing falls (entry 8). -/
def execRstFalls (s : State) : Result :=
  whenUp s (fun s => (s.setPins { s.pins with rst := false }).setLink s.link.cut)

end Sys2Proof.Machine
end

