-- ==== Sys2Proof/Machine/Firing.lean ====
section
/-! DEFINITION. Fires of the Fire Schedule (R82 to R84, R45, R49, R73, R97 to R99): FOLD_FIRE, DIVERT_OPEN_FIRE,
DIVERT_CLOSE_FIRE and BUSY_UNTIL_REACHED. -/

namespace Sys2Proof.Machine

/-- R82: an entry fires, so it leaves the schedule. -/
def State.dropEntry (s : State) (e : FireEntry) : State := s.setEntries (s.sched.entries.erase e)

/-- The entry of record `t` with a given kind that stands at the present position. -/
def State.dueEntry (s : State) (t : Tag) (kind : FireKind) : Option FireEntry :=
  s.sched.entries.find? (fun e => decide (e.tag = t ∧ e.kind = kind ∧ e.pos = s.position))

/-! ## FOLD_FIRE (R45, R73, R84, R97) -/

/-- R97, R98, R105: a shot starts, or starts anew. -/
def OutputRecord.startShot (o : OutputRecord) : OutputRecord := { o with timer := some o.shot }

/-- R45, R73: step `j` is FIRED, R and Lc move on. -/
def ItemRecord.fireStep (m : StationMap) (r : ItemRecord) (j : StepNo) (x : FoldStep) : ItemRecord :=
  let d := x.d.getD 0
  { r with
    steps := r.steps.set j.1 { x with status := .fired }
    headRef := minus (x.fire.getD r.headRef) (m.stations[x.station]).distance
    curLen := r.curLen.map (fun n => Nat.max d (n - d)) }

/-- R45: with no step PENDING the record goes to TO_STACK. -/
def State.stepFired (s : State) (t : Tag) (r : ItemRecord) : State :=
  if r.steps.any (fun x => decide (x.status = .pending)) then s.setRecord t r
  else s.toStack r.lane t r

/-- R45: the Tracking Table's part of a FOLD fire. -/
def State.fireRecord (s : State) (t : Tag) (j : StepNo) : State :=
  match s.record t with
  | none => s
  | some r =>
    match r.steps[j.1]? with
    | none => s
    | some x => if r.state = .folding then s.stepFired t (r.fireStep s.map j x) else s

/-- R82, row FOLD: the shot, the busy-until and the record. -/
def State.fireFold (s : State) (e : FireEntry) (j : StepNo) : State :=
  (((s.dropEntry e).setOut e.out (s.outs[e.out]).startShot).setBusy e.out
    (some (plus s.position (s.map.busySpan e.out)))).fireRecord e.tag j

/-! ## Diverter fires (R49, R83, R99) -/

/-- R99: the open count rises by one. -/
def OutputRecord.openOne (o : OutputRecord) : OutputRecord := { o with openCount := o.openCount + 1 }

/-- R99: the open count falls by one, not below 0. -/
def OutputRecord.closeOne (o : OutputRecord) : OutputRecord := { o with openCount := o.openCount - 1 }

def State.fireOpen (s : State) (e : FireEntry) : State :=
  (s.dropEntry e).setOut e.out (s.outs[e.out]).openOne

/-- R83: the record's own DIVERT_OPEN has not fired. -/
def State.opensLater (s : State) (t : Tag) : Bool :=
  s.sched.entries.any (fun e => decide (e.tag = t ∧ e.kind = .divertOpen))

/-- R49: the record is retired REJECTED (with the drain closes of R128 where it was the last, entry
12), credited and reported. -/
def State.rejectRecord (s : State) (t : Tag) (r : ItemRecord) : State :=
  (((s.retire t r .rejected).drainCloses).credit r.key 0 0 1).emit
    (.reject r.lane t r.key r.customer r.reason r.lead r.len s.position)

/-- R82, row DIVERT_CLOSE; a close whose own open has not fired does not reach the output (R83). -/
def State.fireClose (s : State) (e : FireEntry) : State :=
  let s1 := s.dropEntry e
  let s2 := if s1.opensLater e.tag then s1 else s1.setOut e.out (s1.outs[e.out]).closeOne
  match s2.record e.tag with
  | none => s2
  | some r => s2.rejectRecord e.tag r

/-- R82: an entry fires by its kind. -/
def State.fire (s : State) (e : FireEntry) : State :=
  match e.kind with
  | .fold j => s.fireFold e j
  | .divertOpen => s.fireOpen e
  | .divertClose => s.fireClose e

/-- R82: an entry fires where the Line Position has taken its position; with none there, the event
does not occur (entry 4). -/
def State.fireDue (s : State) (t : Tag) (kind : FireKind) : State :=
  match s.dueEntry t kind with
  | none => s
  | some e => s.fire e

/-- FOLD_FIRE (R82, R45, R73, R84, R97, R98). -/
def execFoldFire (t : Tag) (j : StepNo) (s : State) : Result := whenUp s (fun s => s.fireDue t (.fold j))

/-- DIVERT_OPEN_FIRE (R82, R99). -/
def execDivertOpenFire (t : Tag) (s : State) : Result := whenUp s (fun s => s.fireDue t .divertOpen)

/-- DIVERT_CLOSE_FIRE (R82, R49, R83, R99). -/
def execDivertCloseFire (t : Tag) (s : State) : Result := whenUp s (fun s => s.fireDue t .divertClose)

/-! ## BUSY_UNTIL_REACHED (R84) -/

/-- R84: the output stops being BUSY when the Line Position stands at its busy-until, which follows
from then on. -/
def State.busyReached (s : State) (o : OutId) : State :=
  if s.sched.busy[o] = some s.position then s.setBusy o none else s

/-- BUSY_UNTIL_REACHED (R84). -/
def execBusyUntilReached (o : OutId) (s : State) : Result := whenUp s (fun s => s.busyReached o)

end Sys2Proof.Machine
end

