-- ==== Sys2Proof/Machine/Outputs.lean ====
section
/-! DEFINITION. The Output Unit's own commands (R97, R102 to R105): SHOT_TIMER_EXPIRY and FORCE_OUTPUT. -/

namespace Sys2Proof.Machine

/-- R97: once the n-th tick has been counted the timer stops, and the output is released unless its hold is set (R96).
A timer with ticks to go, one restarted at this instant among them (R98, R105), has no expiry due. -/
def State.expireShot (s : State) (o : OutId) : State :=
  if (s.outs[o]).timer = some 0 then s.setOut o { s.outs[o] with timer := none } else s

/-- SHOT_TIMER_EXPIRY (R7, R97). With no expiry due the event does not occur (entry 5). -/
def execShotTimerExpiry (o : OutId) (s : State) : Result := whenUp s (fun s => s.expireShot o)

/-- R102 to R105. -/
inductive ForceOp where
  | set | clear | shot
  deriving DecidableEq, Repr

/-- R175. -/
def byteForceOp (b : Byte) : Option ForceOp :=
  if b = 0 then some .set else if b = 1 then some .clear else if b = 2 then some .shot else none

/-- R103 for SET, R104 for CLEAR, R105 for SHOT. SET stops a PULSE output's timer and leaves a LATCH
output's count; a timer runs on PULSE outputs alone and a count stands on LATCH outputs alone. -/
def OutputRecord.force (o : OutputRecord) : ForceOp → OutputRecord
  | .set => { o with hold := true, timer := none }
  | .clear => { o with hold := false, timer := none, openCount := 0 }
  | .shot => ({ o with hold := false } : OutputRecord).startShot

/-- R102: the checks in their order, on an output byte whose form is good otherwise. -/
def State.forceOutput (s : State) (src out : Byte) (op : ForceOp) : State :=
  match byteFin 16 out with
  | none => s.answer src kindForceOutput .invalid
  | some o =>
    if s.line ≠ .service then s.answer src kindForceOutput .wrongState
    else if (s.outs[o]).role = .unused then s.answer src kindForceOutput .invalid
    else if op = .shot ∧ (s.outs[o]).role = .diverter then s.answer src kindForceOutput .invalid
    else (s.setOut o ((s.outs[o]).force op)).answer src kindForceOutput .accepted

/-- FORCE_OUTPUT with operation SET (R103). -/
def execForceOutputSet (src out : Byte) (s : State) : Result :=
  whenAddressed src s (fun s => s.forceOutput src out .set)

/-- FORCE_OUTPUT with operation CLEAR (R104). -/
def execForceOutputClear (src out : Byte) (s : State) : Result :=
  whenAddressed src s (fun s => s.forceOutput src out .clear)

/-- FORCE_OUTPUT with operation SHOT (R105). -/
def execForceOutputShot (src out : Byte) (s : State) : Result :=
  whenAddressed src s (fun s => s.forceOutput src out .shot)

/-- R102: a FORCE_OUTPUT telegram of any payload. -/
def State.forceOutputTelegram (s : State) (src : Byte) (p : List Byte) : State :=
  match p with
  | [out, op] =>
    match byteForceOp op with
    | some op => s.forceOutput src out op
    | none => s.answer src kindForceOutput .invalid
  | _ => s.answer src kindForceOutput .invalid

end Sys2Proof.Machine
end

