-- ==== Sys2Proof/Machine/Folding.lean ====
section
/-! DEFINITION. The Fold Calculator (chapter 4) and the reservation of fold actuators (R86, R87). It holds no state. -/

namespace Sys2Proof.Machine

/-- R63: Lk × num ÷ den, rounded to the nearest whole pulse, a half up. -/
def rawOffset (len num den : Nat) : Nat := (2 * len * num + den) / (2 * den)

/-- R64: a number of pulses clamped to the margins of a packet of length `len`. -/
def clampOffset (margin len : Nat) (x : Int) : Nat :=
  if x < margin then margin
  else if x > (len : Int) - margin then len - margin
  else x.toNat

/-- R63, R64: the offset of a step on a packet of length `len`. -/
def foldOffset (margin len : Nat) (st : FoldStep) : Nat :=
  clampOffset margin len ((rawOffset len st.num st.den : Int) + st.trim)

/-- R65: the length of the longer doubled portion. -/
def foldedLength (len d : Nat) : Nat := Nat.max d (len - d)

/-- R66: the fire position of a step, from lead for the first step and from the step before it for
a later one (`prev` is that step's fire position and its station's distance). -/
def firePosition (lead : Pos) (prev : Option (Pos × Nat)) (dist d : Nat) : Pos :=
  match prev with
  | none => plus (plus lead dist) d
  | some (fire, before) => plus (minus (plus fire dist) before) d

/-- R61, item 1: the steps in list order. Answers the list as the computation leaves it and whether
every step was computed; a size failure (R62) leaves its step and the later ones as they were. -/
def computeSteps (m : StationMap) (lead : Pos) :
    Nat → Option (Pos × Nat) → List FoldStep → List FoldStep × Bool
  | _, _, [] => ([], true)
  | len, prev, st :: rest =>
    if len < 2 * m.params.margin + 1 then (st :: rest, false)
    else
      let d := foldOffset m.params.margin len st
      let dist := (m.stations[st.station]).distance
      let fire := firePosition lead prev dist d
      let r := computeSteps m lead (foldedLength len d) (some (fire, dist)) rest
      ({ st with d := some d, fire := some fire } :: r.1, r.2)

/-- R68: fire_0 is before the calculation point or less than ARM beyond it. -/
def isLate (now fire : Pos) (arm : Nat) : Bool := !atOrBeyond fire now || decide (wrapDist now fire < arm)

/-- R69: a FOLD entry per step, each on the output of R67; none if an output were missing, which
R152 and R154 rule out. -/
def foldEntries (m : StationMap) (k : Lane) (t : Tag) : List (FoldStep × StepNo) → Option (List FireEntry)
  | [] => some []
  | (st, j) :: rest =>
    match st.fire, (m.stations[st.station]).outputFor k, foldEntries m k t rest with
    | some p, some o, some es => some (⟨p, .fold j, o, t⟩ :: es)
    | _, _, _ => none

/-- R86: the reservation test of a FOLD entry at `p` on output `o`. -/
def State.reservable (s : State) (o : OutId) (p : Pos) : Bool :=
  let b := s.map.busySpan o
  atOrBeyond p (s.busyUntil o)
    && s.sched.entries.all (fun e =>
      !(e.kind.isFold && decide (e.out = o))
        || (decide (b ≤ wrapDist e.pos p) && decide (b ≤ wrapDist p e.pos)))

/-- R87: the request is taken whole: every entry is tested against the schedule as it stands, and
all are inserted or none. -/
def State.requestFolds (s : State) (es : List FireEntry) : Option State :=
  if es.all (fun e => s.reservable e.out e.pos) then some (es.foldl State.insertEntry s) else none

/-- R42, R43, R71: the record goes to its diverter over the span of its lead and trail. -/
def State.divertRecord (s : State) (k : Lane) (t : Tag) (r : ItemRecord) (trail : Pos) : State :=
  ((s.setRecord t { r with state := .diverting }).bookDiverter k t .divertOpen (s.openAt k r.lead)).bookDiverter
    k t .divertClose (s.closeAt k trail)

/-- R71: the calculator's reason, every step CANCELLED, the diverter booked. -/
def State.rejectFold (s : State) (k : Lane) (t : Tag) (r : ItemRecord) (trail : Pos) (steps : List FoldStep)
    (reason : Reason) : State :=
  s.divertRecord k t { r with steps := cancelEvery steps, reason := some reason } trail

/-- R60, R61, R70, R71: one computation, whole, on a record of length `len` confirmed at the present
Line Position. -/
def State.foldRecord (s : State) (k : Lane) (t : Tag) (r : ItemRecord) (len : Nat) (trail : Pos) : State :=
  let m := s.map
  let (steps, computed) := computeSteps m r.lead len none r.steps
  if !computed then s.rejectFold k t r trail steps .undersize
  else if ((steps.head?).bind (fun st => st.fire)).any (fun f => isLate s.position f m.params.arm) then
    s.rejectFold k t r trail steps .lateFold
  else
    match (foldEntries m k t (steps.zip allSteps)).bind s.requestFolds with
    | none => s.rejectFold k t r trail steps .conflict
    | some s' => s'.setRecord t { r with steps := steps, state := .folding }

end Sys2Proof.Machine
end

