-- ==== Sys2Proof/Machine/Tracking.lean ====
section
/-! DEFINITION. The Tracking Table (chapter 3): records at leading and trailing edges, OVERLENGTH_WAIT, JAM and
ITEM_READ. -/

namespace Sys2Proof.Machine

/-! ## Leading edge (R37, R38) -/

/-- R36: the lowest-numbered free slot. -/
def State.freeTag (s : State) : Option Tag := allTags.find? (fun t => (s.record t).isNone)

/-- A record joins the table and the tail of the entry order. -/
def State.addRecord (s : State) (t : Tag) (r : ItemRecord) : State :=
  s.setTrack { s.track with
    slots := upd s.track.slots t (some r)
    order := s.track.order ++ [t] }

/-- R33: a reason set at binding books the DIVERT_OPEN. -/
def State.bookBound (s : State) (k : Lane) (t : Tag) (r : ItemRecord) : State :=
  if r.reason.isSome then s.bookDiverter k t .divertOpen (s.openAt k r.lead) else s

/-- R23, R37: the record is made in slot `t` and bound; the new head of the queue may expire (R22,
R27). -/
def State.makeRecord (s : State) (k : Lane) (p : Pos) (t : Tag) : State :=
  let b := bindQueue s.queues[k]
  let r := s.boundRecord k p b
  (((((s.setQueue k b.rest).addRecord t r).bookBound k t r).count k .entered).expireHeads k)

/-- R37, R38: a leading edge that R14 hands to the table. -/
def State.leadingEdge (s : State) (k : Lane) (p : Pos) : State :=
  match s.freeTag with
  | some t => s.makeRecord k p t
  | none => (s.consumeUntracked k).raiseFault k .trackOverrun p

/-! ## Trailing edge (R40 to R43) -/

/-- R40: the record as its confirmation finds it; an overlong piece has no length. -/
def ItemRecord.confirm (r : ItemRecord) (trail : Pos) : ItemRecord :=
  let n := wrapDist r.lead trail
  let len := if n ≤ 4096 then some n else none
  { r with trail := some trail, len := len, curLen := len, overWait := none }

/-- R40: the overlength found at confirmation opens the diverter at once where its position has been
passed. -/
def State.lateOpenAt (s : State) (k : Lane) (lead : Pos) : Pos :=
  if ahead s.position (s.openAt k lead) then s.openAt k lead else plus s.position 1

/-- R41: a record with a reason goes to its diverter, with its close behind its tail. -/
def State.divertConfirmed (s : State) (k : Lane) (t : Tag) (r : ItemRecord) (trail : Pos) : State :=
  (s.setRecord t { r with state := .diverting }).bookDiverter k t .divertClose (s.closeAt k trail)

/-- R40 to R43 on a record `r` (already confirmed) with wrap distance `n` from lead to trail. -/
def State.settleConfirmed (s : State) (k : Lane) (t : Tag) (r : ItemRecord) (n : Nat) (trail : Pos) : State :=
  if r.reason.isSome then s.divertConfirmed k t r trail
  else if 4095 < n then
    (s.bookDiverter k t .divertOpen (s.lateOpenAt k r.lead)).divertConfirmed k t
      { r with reason := some .oversize } trail
  else if n < r.min then
    s.divertRecord k t { r with reason := some .undersize, steps := cancelEvery r.steps } trail
  else if r.max < n then
    s.divertRecord k t { r with reason := some .oversize, steps := cancelEvery r.steps } trail
  else if r.route = .flat || r.steps.isEmpty then s.toStack k t r
  else s.foldRecord k t r n trail

/-- R40: a trailing edge with position `trail` (the mark) confirms the lane's oldest ENTERING record;
with none it is ignored. -/
def State.trailingEdge (s : State) (k : Lane) (trail : Pos) : State :=
  match s.oldest k .entering with
  | none => s
  | some t =>
    match s.record t with
    | none => s
    | some r => s.settleConfirmed k t (r.confirm trail) (wrapDist r.lead trail) trail

/-! ## OVERLENGTH_WAIT (R44) -/

/-- R44: the wait is met; a piece that still covers its sensor takes OVERSIZE, unless it has a
reason. -/
def State.meetOverlength (s : State) (t : Tag) (r : ItemRecord) : State :=
  let r' := { r with overWait := none }
  if s.unit.lsQual[r.lane] = .covered ∧ r.reason.isNone then
    (s.setRecord t { r' with reason := some .oversize }).bookDiverter r.lane t .divertOpen
      (s.openAt r.lane r.lead)
  else s.setRecord t r'

/-- R44: only a wait that stands at the present position is met (entry 4). -/
def State.overlength (s : State) (t : Tag) : State :=
  match s.record t with
  | none => s
  | some r => if r.overWait = some s.position then s.meetOverlength t r else s

/-- OVERLENGTH_WAIT (R44). -/
def execOverlengthWait (t : Tag) (s : State) : Result := whenUp s (fun s => s.overlength t)

/-! ## JAM (R48) -/

/-- R48: the lane's jam wait stands at the present position. -/
def State.jamDue (s : State) (k : Lane) : Bool :=
  ((s.oldest k .toStack).bind s.record).any (fun r => decide (s.jamPosition r = some s.position))

def State.jam (s : State) (k : Lane) : State := if s.jamDue k then s.passJamWait k else s

/-- JAM (R48): the lane's oldest TO_STACK record, overdue at the present position, is retired JAMMED
and the lane stops; the jam wait passes on (R46). With no jam position due the event does not occur
(entry 4). -/
def execJam (k : Lane) (s : State) : Result := whenUp s (fun s => s.jam k)

/-! ## ITEM_READ (R55, R177) -/

/-- R177: the presence byte of part 1. -/
def ItemRecord.presence (r : ItemRecord) : Byte :=
  byteOf ((if r.anonymous then 1 else 0) + (if r.startsBatch then 2 else 0)
    + (if r.trail.isSome then 4 else 0) + (if r.len.isSome then 8 else 0)
    + (if r.expected.isSome then 16 else 0))

/-- R177: the body of part 1. -/
def State.itemPart1 (s : State) (t : Tag) (r : ItemRecord) : List Byte :=
  [byteOf t, byteOf r.lane, r.state.code, byteOf (s.track.order.idxOf t), byteOf r.article,
   byteOf r.group, r.presence]
    ++ bytes16 (r.customer.getD 0).toNat ++ [r.route.code, reasonCode r.reason]
    ++ posBytes r.lead ++ optPosBytes r.trail ++ bytes16 (r.len.getD 0) ++ bytes16 (r.curLen.getD 0)
    ++ bytes16 r.min ++ bytes16 r.max ++ [byteOf r.target] ++ posBytes r.headRef
    ++ optPosBytes r.expected ++ [byteOf (s.entriesOwned t), byteOf r.steps.length]

/-- R177: one step of part 2; num stands in the upper four places of its byte and den in the lower. -/
def FoldStep.itemBytes (x : FoldStep) : List Byte :=
  [byteOf x.station, byteOf (x.num * 16 + x.den), BitVec.ofInt 8 x.trim]
    ++ bytes16 (x.d.getD 65535) ++ optPosBytes x.fire ++ [x.status.code]

/-- R177: the body of part 2. -/
def itemPart2 (t : Tag) (r : ItemRecord) : List Byte :=
  byteOf t :: r.steps.flatMap FoldStep.itemBytes

/-- R55, R177: the telegrams of the one answer, which enter the Report Queue together (R173). -/
def State.itemAnswers (s : State) (src : Byte) (t : Tag) : List Telegram :=
  match s.record t with
  | none => [s.answerTelegram src kindItemRead .accepted 0 [byteOf t]]
  | some r =>
    let part1 := s.answerTelegram src kindItemRead .accepted 1 (s.itemPart1 t r)
    if r.steps.isEmpty then [part1]
    else [part1, s.answerTelegram src kindItemRead .accepted 2 (itemPart2 t r)]

def State.itemRead (s : State) (src : Byte) (p : List Byte) : State :=
  match p with
  | [b] =>
    match byteFin 24 b with
    | some t => s.report (s.itemAnswers src t)
    | none => s.answer src kindItemRead .invalid
  | _ => s.answer src kindItemRead .invalid

/-- ITEM_READ (R55, R177). -/
def execItemRead (src : Byte) (p : List Byte) (s : State) : Result :=
  whenAddressed src s (fun s => s.itemRead src p)

end Sys2Proof.Machine
end

