-- ==== Sys2Proof/Machine/Sensing.lean ====
section
/-! DEFINITION. Sensors, qualifiers and the routing of their events (Sections 1.4 and 1.5): COVER, UNCOVER and
CONFIRM_POSITION_REACHED. -/

namespace Sys2Proof.Machine

/-! ## Pins and qualifier records of a sensor -/

def State.qual (s : State) : Sensor → Qualifier
  | .ls k => s.unit.lsQual[k]
  | .es k => s.unit.esQual[k]

def State.setQual (s : State) (x : Sensor) (q : Qualifier) : State :=
  match x with
  | .ls k => s.setUnit { s.unit with lsQual := upd s.unit.lsQual k q }
  | .es k => s.setUnit { s.unit with esQual := upd s.unit.esQual k q }

def State.pinLevel (s : State) : Sensor → Bool
  | .ls k => s.pins.ls[k]
  | .es k => s.pins.es[k]

def State.setPin (s : State) (x : Sensor) (level : Bool) : State :=
  match x with
  | .ls k => s.setPins { s.pins with ls := upd s.pins.ls k level }
  | .es k => s.setPins { s.pins with es := upd s.pins.es k level }

/-! ## Routing (R14 to R16) -/

/-- R14, R15: a lane-sensor leading edge at `p` goes to the Tracking Table, gives a warning, or is
discarded. -/
def State.routeLeading (s : State) (k : Lane) (p : Pos) : State :=
  if s.line.runs && s.enabled k then s.leadingEdge k p
  else if s.inPlan k then s.emit (.fault k .unexpectedPiece p)
  else s

/-- R14: a lane-sensor trailing edge goes to the Tracking Table or is discarded. -/
def State.routeTrailing (s : State) (k : Lane) (mark : Pos) : State :=
  if s.line.runs && s.enabled k then s.trailingEdge k mark else s

/-- R16: an arrival goes to the stacker or is discarded. -/
def State.routeArrival (s : State) (k : Lane) (p : Pos) : State :=
  if s.line.runs && s.enabled k then s.arrival k p else s

/-- Section 1.5: the leading edge of a sensor, at the present position. -/
def State.leadingEvent (s : State) : Sensor → State
  | .ls k => s.routeLeading k s.position
  | .es k => s.routeArrival k s.position

/-- Section 1.5, R16: the trailing edge of a sensor; an entry sensor's is discarded. -/
def State.trailingEvent (s : State) (x : Sensor) (mark : Pos) : State :=
  match x with
  | .ls k => s.routeTrailing k mark
  | .es _ => s

/-! ## COVER (R9) -/

/-- R9: the qualifier's answer to a rise of its input. -/
def State.coverQual (s : State) (x : Sensor) : State :=
  match s.qual x with
  | .clear => (s.setQual x .covered).leadingEvent x
  | .covered => s
  | .clearing _ _ => s.setQual x .covered

/-- COVER (R9, R14 to R16). The input rises; an input already high has no rise. While RST is low the
level moves and the part takes no event (R165, entry 7). -/
def execCover (x : Sensor) (s : State) : Result :=
  .next (
    if s.pinLevel x then s
    else if s.pins.rst then (s.setPin x true).coverQual x
    else s.setPin x true)

/-! ## UNCOVER (R10) -/

/-- R10: the mark is the present position and the confirm position lies Q beyond it. -/
def State.uncoverQual (s : State) (x : Sensor) : State :=
  match s.qual x with
  | .clear => s
  | .covered => s.setQual x (.clearing s.position (plus s.position s.unit.confirmSpan))
  | .clearing _ _ => s

/-- R44: an overlength wait of the lane that stands at the present position was met by the advance,
before the uncover (entry 14). -/
def State.meetLaneOverlength (s : State) (x : Sensor) : State :=
  match x with
  | .ls k =>
    match s.oldest k .entering with
    | some t => s.overlength t
    | none => s
  | .es _ => s

/-- UNCOVER (R10). The input falls; an input already low has no fall. -/
def execUncover (x : Sensor) (s : State) : Result :=
  .next (
    if !s.pinLevel x then s
    else if s.pins.rst then ((s.setPin x false).meetLaneOverlength x).uncoverQual x
    else s.setPin x false)

/-! ## CONFIRM_POSITION_REACHED (R11) -/

/-- R11: a CLEARING qualifier whose confirm position is the present position becomes CLEAR and gives
its trailing edge at the mark; otherwise the event does not occur (entry 4). -/
def State.confirmReached (s : State) (x : Sensor) : State :=
  match s.qual x with
  | .clear => s
  | .covered => s
  | .clearing mark confirm =>
    if confirm = s.position then (s.setQual x .clear).trailingEvent x mark else s

/-- CONFIRM_POSITION_REACHED (R11, R40 to R43, R60 to R71). -/
def execConfirmPositionReached (x : Sensor) (s : State) : Result :=
  whenUp s (fun s => s.confirmReached x)

end Sys2Proof.Machine
end

