-- ==== Sys2Proof/Machine/Clock.lean ====
section
/-! DEFINITION. The advance of the belt and of the time base (chapter 1): ENCODER_PULSE, and the tick that a step on
an empty queue stands for. Events already due are met before either (R4, entry 4). -/

namespace Sys2Proof.Machine

/-! ## Events due at the present position (R4, entry 4) -/

def State.settleQualifiers (s : State) : State :=
  (allLanes.map Sensor.ls ++ allLanes.map Sensor.es).foldl State.confirmReached s

def State.settleOverlength (s : State) : State := allTags.foldl State.overlength s

/-- The entry fires, unless it has left the schedule meanwhile. -/
def State.fireIfListed (s : State) (e : FireEntry) : State :=
  if s.sched.entries.contains e then s.fire e else s

def State.settleFires (s : State) : State :=
  (s.sched.entries.filter (fun e => decide (e.pos = s.position))).foldl State.fireIfListed s

def State.settleJams (s : State) : State := allLanes.foldl State.jam s

def State.settleBusy (s : State) : State := allOuts.foldl State.busyReached s

def State.settleExpiries (s : State) : State := allLanes.foldl State.expireHeads s

/-- R7, R97: the shots whose expiry is due. -/
def State.settleShots (s : State) : State := allOuts.foldl State.expireShot s

/-- R7, R119: the discharge timers whose expiry is due. -/
def State.settleDischarges (s : State) : State := allLanes.foldl State.dischargeTimeout s

/-- R4: every event that waits for the present position, every timer expiry that the last tick made due (R7), then a
drain that is complete, is taken; the order among them is fixed here (DESIGN CHOICE, entry 4). -/
def State.settle (s : State) : State :=
  ((((((((s.settleQualifiers).settleOverlength).settleFires).settleJams).settleBusy).settleExpiries).settleShots
    ).settleDischarges).completeDrain

/-! ## ENCODER_PULSE (R1, R2) -/

/-- R1, R2: the residue advances; at the prescale value it starts anew and the position advances. -/
def PositionUnit.pulse (u : PositionUnit) : PositionUnit :=
  if u.residue + 1 < u.prescale then { u with residue := u.residue + 1 }
  else { u with residue := 0, position := u.position + 1 }

/-- ENCODER_PULSE (R1 to R4). -/
def execEncoderPulse (s : State) : Result :=
  whenUp s (fun s =>
    let s := s.settle
    s.setUnit s.unit.pulse)

/-! ## One tick of the time base (R6, R7, entry 3) -/

/-- R7: one tick of a timer that runs; the n-th makes its expiry due. -/
def tickTimer (timer : Option Nat) : Option Nat := timer.map (fun n => n - 1)

/-- R6, R7: one tick of every running shot timer and discharge timer. -/
def State.tick (s : State) : State :=
  (s.setOuts (tabulate fun o => { s.outs[o] with timer := tickTimer (s.outs[o]).timer })).setStackers
    (tabulate fun k => { s.stackers[k] with timer := tickTimer (s.stackers[k]).timer })

/-- What a step does on an empty queue: events that are due, then one tick of the time base, which runs from the rise
of RST (R6; DESIGN CHOICE, entry 3). -/
def State.idle (s : State) : State := if s.pins.rst then s.settle.tick else s

end Sys2Proof.Machine
end

