-- ==== Sys2Proof/Machine/Billing.lean ====
section
/-! DEFINITION. The Tally Unit's commands (chapter 8): TALLY_FREEZE and TALLY_READ. -/

namespace Sys2Proof.Machine

/-! ## TALLY_FREEZE (R136 to R138) -/

/-- R137: the overflow row is counted in a snapshot when one of its counters is above 0. -/
def TallyRow.isZero (r : TallyRow) : Bool :=
  decide (r.pieces = 0) && decide (r.stackCount = 0) && decide (r.rejects = 0)

/-- R137, item 1: the rows of a new snapshot. -/
def Tally.frozenRows (t : Tally) : List SnapRow :=
  t.live.map (fun x => ⟨some x.1, x.2⟩) ++ (if t.overflow.isZero then [] else [⟨none, t.overflow⟩])

/-- R137: one freeze at position `p`. -/
def Tally.freeze (t : Tally) (p : Pos) (clear : Bool) : Tally :=
  { live := if clear then [] else t.live
    overflow := if clear then .zero else t.overflow
    freezeSerial := t.freezeSerial + 1
    snapSerial := t.freezeSerial + 1
    snapStamp := some p
    snapCleared := clear
    snapRows := t.frozenRows }

/-- R136, R177: the body of the answer: taken, row count, and the header that then stands. -/
def Tally.freezeBody (t : Tally) (taken : Bool) : List Byte :=
  [flagByte taken, byteOf t.snapRows.length, t.snapSerial] ++ optPosBytes t.snapStamp
    ++ [flagByte t.snapCleared]

/-- R136 to R138 on a good payload. -/
def State.freezeTally (s : State) (src : Byte) (clear : Bool) : State :=
  if s.tally.snapRows = [] then
    let t := s.tally.freeze s.position clear
    (s.setTally t).report [s.answerTelegram src kindTallyFreeze .accepted 0 (t.freezeBody true)]
  else s.report [s.answerTelegram src kindTallyFreeze .accepted 0 (s.tally.freezeBody false)]

def State.tallyFreeze (s : State) (src : Byte) (p : List Byte) : State :=
  match p with
  | [b] =>
    match byteFlag b with
    | some clear => s.freezeTally src clear
    | none => s.answer src kindTallyFreeze .invalid
  | _ => s.answer src kindTallyFreeze .invalid

/-- TALLY_FREEZE (R136 to R138). -/
def execTallyFreeze (src : Byte) (p : List Byte) (s : State) : Result :=
  whenAddressed src s (fun s => s.tallyFreeze src p)

/-! ## TALLY_READ (R140, R141, R177) -/

/-- R177: a row of 11 bytes. -/
def SnapRow.bytes (r : SnapRow) : List Byte :=
  (match r.key with
    | some k => [byteOf (k.group.1 + if r.row.saturated then 128 else 0), byteOf k.article]
    | none => [byteOf (16 + if r.row.saturated then 128 else 0), 255])
    ++ bytes24 r.row.pieces ++ bytes24 r.row.stackCount ++ bytes24 r.row.rejects

/-- R140, R177: rows remaining, plus 128 when the cleared flag is set; 127 marks an absent stamp. -/
def Tally.readDetail (t : Tally) : Byte :=
  byteOf ((if t.snapStamp.isNone then 127 else t.snapRows.length - 3)
    + (if t.snapCleared then 128 else 0))

/-- R177: header and the first rows, up to 3. -/
def Tally.readBody (t : Tally) : List Byte :=
  [t.snapSerial] ++ optPosBytes t.snapStamp ++ (t.snapRows.take 3).flatMap SnapRow.bytes

/-- R141: the rows leave the snapshot when the answer enters the Report Queue. -/
def State.dropRead (s : State) : State :=
  if s.reportRoom 1 then s.setTally { s.tally with snapRows := s.tally.snapRows.drop 3 } else s

def State.tallyRead (s : State) (src : Byte) (p : List Byte) : State :=
  match p with
  | [] =>
    (s.dropRead).report
      [s.answerTelegram src kindTallyRead .accepted s.tally.readDetail s.tally.readBody]
  | _ => s.answer src kindTallyRead .invalid

/-- TALLY_READ (R140, R141). -/
def execTallyRead (src : Byte) (p : List Byte) (s : State) : Result :=
  whenAddressed src s (fun s => s.tallyRead src p)

end Sys2Proof.Machine
end

