-- ==== Sys2Proof/Machine/Staging.lean ====
section
/-! DEFINITION. The staging copy of the Station Map and its commit (Sections 9.1 and 9.2): SETUP_GLOBALS,
SETUP_STATION, SETUP_OUTPUT, SETUP_DIVERTER and COMMIT_MAP. -/

namespace Sys2Proof.Machine

/-- `n` lies from `lo` to `hi`. -/
def inRange (lo hi n : Nat) : Bool := decide (lo ≤ n) && decide (n ≤ hi)

/-- R143: a staging load of good form, with the staging copy it would leave (none where check 3
refuses it) and its answer. -/
def State.stage (s : State) (src kind : Byte) (m : Option (StationMap × Code)) : State :=
  if s.line ≠ .init then s.answer src kind .frozen
  else
    match m with
    | none => s.answer src kind .invalid
    | some (m, code) => (s.setSetup { s.setup with staging := m }).answer src kind code

/-! ## SETUP_GLOBALS (R144) -/

/-- R144: every field in its range. -/
def Globals.valid (g : Globals) : Bool :=
  [1, 2, 4, 8].contains g.prescale && inRange 4 255 g.confirmSpan && inRange 1 63 g.margin
    && inRange 8 1023 g.arm && inRange 256 65535 g.announceSpan && inRange 1 65535 g.stackDist
    && inRange 4 255 g.tol && decide (g.reportNode.toNat ≤ 30) && inRange 1 255 g.timeout

def State.setupGlobals (s : State) (src : Byte) (p : List Byte) : State :=
  match p with
  | [prescale, q, m, arm1, arm0, a1, a0, sd1, sd0, tol, node, timeout] =>
    let g : Globals :=
      { prescale := prescale.toNat
        confirmSpan := q.toNat
        margin := m.toNat
        arm := word16 arm1 arm0
        announceSpan := word16 a1 a0
        stackDist := word16 sd1 sd0
        tol := tol.toNat
        reportNode := node
        timeout := timeout.toNat }
    s.stage src kindSetupGlobals
      (if g.valid then some ({ s.setup.staging with globals := some g }, .accepted) else none)
  | _ => s.answer src kindSetupGlobals .invalid

/-- SETUP_GLOBALS (R143, R144). -/
def execSetupGlobals (src : Byte) (p : List Byte) (s : State) : Result :=
  whenAddressed src s (fun s => s.setupGlobals src p)

/-! ## SETUP_STATION (R145) -/

/-- R145: the station that the fields after the number give, if their ranges hold. -/
def stationOf (kind : Byte) (dist busy : Nat) (o0 o1 o2 o3 : Byte) : Option Station :=
  if kind = 0 then some .absent
  else if !(inRange 1 65535 dist && inRange 1 4095 busy) then none
  else if kind = 1 then
    match byteOutput o0, byteOutput o1, byteOutput o2, byteOutput o3 with
    | some a, some b, some c, some d => some (.lane dist busy #v[a, b, c, d])
    | _, _, _, _ => none
  else if kind = 2 then (byteFin 16 o0).map (fun o => .shared dist busy o)
  else none

def State.setupStation (s : State) (src : Byte) (p : List Byte) : State :=
  match p with
  | [st, kind, d1, d0, b1, b0, o0, o1, o2, o3] =>
    match byteFin 6 st with
    | none => s.answer src kindSetupStation .invalid
    | some st =>
      let m := s.setup.staging
      s.stage src kindSetupStation
        ((stationOf kind (word16 d1 d0) (word16 b1 b0) o0 o1 o2 o3).map
          (fun x => ({ m with stations := upd m.stations st x }, .accepted)))
  | _ => s.answer src kindSetupStation .invalid

/-- SETUP_STATION (R143, R145). -/
def execSetupStation (src : Byte) (p : List Byte) (s : State) : Result :=
  whenAddressed src s (fun s => s.setupStation src p)

/-! ## SETUP_OUTPUT (R146) -/

/-- R146: the staged output and the answer, a PULSE shot of 0 being held as 1. -/
def outCfgOf (mode : Byte) (shot : Nat) : Option (OutCfg × Code) :=
  match byteMode mode with
  | none => none
  | some .latch => some (⟨.latch, 0⟩, .accepted)
  | some .pulse =>
    if 1023 < shot then none
    else if shot = 0 then some (⟨.pulse, 1⟩, .clamped)
    else some (⟨.pulse, shot⟩, .accepted)

def State.setupOutput (s : State) (src : Byte) (p : List Byte) : State :=
  match p with
  | [out, mode, s1, s0] =>
    match byteFin 16 out with
    | none => s.answer src kindSetupOutput .invalid
    | some o =>
      let m := s.setup.staging
      s.stage src kindSetupOutput
        ((outCfgOf mode (word16 s1 s0)).map
          (fun x => ({ m with outputs := upd m.outputs o (some x.1) }, x.2)))
  | _ => s.answer src kindSetupOutput .invalid

/-- SETUP_OUTPUT (R143, R146). -/
def execSetupOutput (src : Byte) (p : List Byte) (s : State) : Result :=
  whenAddressed src s (fun s => s.setupOutput src p)

/-! ## SETUP_DIVERTER (R147) -/

/-- R147: the entry, if its ranges hold; open_lead, close_trail and the timeout take every byte. -/
def diverterOf (out : Byte) (dist : Nat) (openLead closeTrail cap timeout : Byte) : Option Diverter :=
  match byteOutput out with
  | none => none
  | some o =>
    if inRange 1 65535 dist && decide (cap.toNat ≤ 3) then
      some ⟨o, dist, openLead.toNat, closeTrail.toNat, cap.toNat, timeout.toNat⟩
    else none

def State.setupDiverter (s : State) (src : Byte) (p : List Byte) : State :=
  match p with
  | [lane, out, d1, d0, openLead, closeTrail, cap, timeout] =>
    match byteFin 4 lane with
    | none => s.answer src kindSetupDiverter .invalid
    | some k =>
      let m := s.setup.staging
      s.stage src kindSetupDiverter
        ((diverterOf out (word16 d1 d0) openLead closeTrail cap timeout).map
          (fun x => ({ m with diverters := upd m.diverters k x }, .accepted)))
  | _ => s.answer src kindSetupDiverter .invalid

/-- SETUP_DIVERTER (R143, R147). -/
def execSetupDiverter (src : Byte) (p : List Byte) (s : State) : Result :=
  whenAddressed src s (fun s => s.setupDiverter src p)

/-! ## COMMIT_MAP (R148, R149) -/

/-- The outputs that present stations name. -/
def StationMap.stationOuts (m : StationMap) : List OutId := m.stations.toList.flatMap Station.outputs

/-- The diverter outputs that are present. -/
def StationMap.diverterOuts (m : StationMap) : List OutId :=
  m.diverters.toList.filterMap (fun d => d.output)

/-- R148, check 2. -/
def StationMap.twiceNamed (m : StationMap) : Option OutId :=
  allOuts.find? (fun o => decide (2 ≤ (m.stationOuts ++ m.diverterOuts).count o))

def StationMap.stagedMode (m : StationMap) (o : OutId) : Option OutMode :=
  (m.outputs[o]).map (fun c => c.mode)

/-- R148, check 3. -/
def StationMap.wrongMode (m : StationMap) : Option OutId :=
  allOuts.find? (fun o =>
    (m.stationOuts.contains o && decide (m.stagedMode o ≠ some .pulse))
      || (m.diverterOuts.contains o && decide (m.stagedMode o ≠ some .latch)))

/-- R148, check 4; the item is L0 as 0, or 8 plus the station's number (R177). -/
def StationMap.lacksL0 (m : StationMap) : Option Byte :=
  if (m.diverters[(0 : Lane)]).output.isNone then some 0
  else (allStations.find? (fun i => (m.stations[i]).lacksLane 0)).map (fun i => byteOf (8 + i.1))

/-- The first lane with a diverter output that fails a condition (checks 5 to 7). -/
def StationMap.laneFailing (m : StationMap) (ok : Diverter → Bool) : Option Lane :=
  allLanes.find? (fun k => (m.diverters[k]).output.isSome && !ok m.diverters[k])

/-- R148, check 5: D_div − open_lead is 4,095 + Q + ARM or more. -/
def StationMap.divertsInTime (m : StationMap) (d : Diverter) : Bool :=
  decide (4095 + m.params.confirmSpan + m.params.arm + d.openLead ≤ d.dist)

/-- R148, check 6: D_div exceeds the distance of every present station. -/
def StationMap.divertsAfterFolds (m : StationMap) (d : Diverter) : Bool :=
  m.stations.toList.all (fun st => !st.isPresent || decide (st.distance < d.dist))

/-- R148, check 7: stack_dist exceeds D_div. -/
def StationMap.stacksAfterDivert (m : StationMap) (d : Diverter) : Bool :=
  decide (d.dist < m.params.stackDist)

/-- R148: the number of the first check that fails and its item as R177 carries it. -/
def StationMap.fault (m : StationMap) : Option (Byte × Byte) :=
  if m.globals.isNone then some (1, 255)
  else (m.twiceNamed.map (fun o => ((2 : Byte), byteOf o)))
    <|> (m.wrongMode.map (fun o => ((3 : Byte), byteOf o)))
    <|> (m.lacksL0.map (fun i => ((4 : Byte), i)))
    <|> ((m.laneFailing m.divertsInTime).map (fun k => ((5 : Byte), byteOf k)))
    <|> ((m.laneFailing m.divertsAfterFolds).map (fun k => ((6 : Byte), byteOf k)))
    <|> ((m.laneFailing m.stacksAfterDivert).map (fun k => ((7 : Byte), byteOf k)))

/-- R95: the record that an output takes at commit. -/
def StationMap.outputAt (m : StationMap) (o : OutId) : OutputRecord :=
  if m.stationOuts.contains o then
    { OutputRecord.cold with role := .station, shot := ((m.outputs[o]).map (fun c => c.shot)).getD 1 }
  else if m.diverterOuts.contains o then { OutputRecord.cold with role := .diverter }
  else .cold

/-- R149: the tables right after commit. -/
def Setup.commit (x : Setup) : Setup :=
  { Setup.cold with
    staging := x.staging
    committed := some x.staging
    lanes := some .atCommit }

/-- R149, R2, R12, R93, R95: the effects of a commit before the line changes. -/
def State.commit (s : State) : State :=
  let m := s.setup.staging
  (((s.setSetup s.setup.commit).setUnit
    { s.unit with prescale := m.params.prescale, residue := 0, confirmSpan := m.params.confirmSpan }).setOuts
      (tabulate m.outputAt)).setSched { s.sched with busy := Vector.replicate 16 none }

/-- R148, R149: the checks, or the commit with its answer and then its STATE_NOTE (R160). -/
def State.commitMap (s : State) (src : Byte) (p : List Byte) : State :=
  match p with
  | [] =>
    if s.line ≠ .init then s.answer src kindCommitMap .frozen
    else
      match s.setup.staging.fault with
      | some (check, item) =>
        s.report [s.answerTelegram src kindCommitMap .invalid check [item]]
      | none => ((s.commit).answer src kindCommitMap .accepted).changeLine .ready .commit
  | _ => s.answer src kindCommitMap .invalid

/-- COMMIT_MAP (R148, R149). -/
def execCommitMap (src : Byte) (p : List Byte) (s : State) : Result :=
  whenAddressed src s (fun s => s.commitMap src p)

end Sys2Proof.Machine
end

