-- ==== Sys2Proof/Machine/Loads.lean ====
section
/-! DEFINITION. Loads to the working tables and locks (Sections 9.3 and 9.4): LOAD_ARTICLE, LOAD_PLAN, LOAD_CUSTOMER,
LOAD_LANES and LOCK_ENTRY. -/

namespace Sys2Proof.Machine

/-- R150, checks 2 to 4 of a load of good form: whether its line state accepts it, whether its entry is
locked, and the tables it would leave with its answer (none where check 4 refuses it). -/
def State.load (s : State) (src kind : Byte) (accepts locked : Bool) (x : Option (Setup × Code)) : State :=
  if !accepts then s.answer src kind .wrongState
  else if locked then s.answer src kind .locked
  else
    match x with
    | none => s.answer src kind .invalid
    | some (x, code) => (s.setSetup x).answer src kind code

/-- R151, R152: READY and RUN. -/
def LineState.takesTables : LineState → Bool
  | .ready => true
  | .run => true
  | _ => false

/-- R153: READY, RUN and DRAIN. -/
def LineState.takesCustomers : LineState → Bool
  | .ready => true
  | .run => true
  | .drain => true
  | _ => false

/-! ## LOAD_ARTICLE (R151) -/

/-- R151: the row that the fields give and the answer, if every check holds; the plan's range is
checked for every route and its validity for STACK (entry 19). -/
def Setup.articleRow (x : Setup) (route plan : Byte) (min max : Nat) (target : Byte) :
    Option (ArticleRow × Code) :=
  match byteRoute route, byteFin 16 plan with
  | some r, some n =>
    if r = .stack ∧ (x.plans[n]).isNone then none
    else if !(inRange 1 4095 min && inRange 1 4095 max && decide (min ≤ max)) then none
    else if target = 0 then none
    else if target.toNat < 4 then some (⟨r, n, min, max, 4⟩, .clamped)
    else some (⟨r, n, min, max, target.toNat⟩, .accepted)
  | _, _ => none

/-- R151: the Article Table with row `a` written or made invalid. -/
def Setup.withArticle (x : Setup) (a : Article) (valid route plan : Byte) (min max : Nat)
    (target : Byte) : Option (Setup × Code) :=
  match byteFlag valid with
  | none => none
  | some false => some ({ x with articles := upd x.articles a none }, .accepted)
  | some true =>
    (x.articleRow route plan min max target).map
      (fun r => ({ x with articles := upd x.articles a (some r.1) }, r.2))

def State.loadArticle (s : State) (src : Byte) (p : List Byte) : State :=
  match p with
  | [article, valid, route, plan, min1, min0, max1, max0, target] =>
    match byteFin 64 article with
    | none => s.answer src kindLoadArticle .invalid
    | some a =>
      s.load src kindLoadArticle s.line.takesTables (s.setup.articleLocks[a])
        (s.setup.withArticle a valid route plan (word16 min1 min0) (word16 max1 max0) target)
  | _ => s.answer src kindLoadArticle .invalid

/-- LOAD_ARTICLE (R150, R151). -/
def execLoadArticle (src : Byte) (p : List Byte) (s : State) : Result :=
  whenAddressed src s (fun s => s.loadArticle src p)

/-! ## LOAD_PLAN (R152) -/

/-- The steps that the bytes after the step count spell; none where a station number is out of range.
The trim is signed (R175). -/
def planSteps : List Byte → Option (List PlanStep)
  | [] => some []
  | st :: num :: den :: trim :: rest =>
    match byteFin 6 st, planSteps rest with
    | some st, some steps => some (⟨st, num.toNat, den.toNat, trim.toInt⟩ :: steps)
    | _, _ => none
  | _ => none

/-- Strictly increasing. -/
def increasing : List Nat → Bool
  | [] => true
  | [_] => true
  | a :: b :: rest => decide (a < b) && increasing (b :: rest)

/-- R152: the content check. -/
def State.planOk (s : State) (steps : List PlanStep) : Bool :=
  decide (steps.length ≤ 4)
    && steps.all (fun x => (s.map.stations[x.station]).isPresent)
    && steps.all (fun x => inRange 1 7 x.num && inRange 2 8 x.den && decide (x.num < x.den))
    && increasing (steps.map (fun x => (s.map.stations[x.station]).distance))
    && steps.all (fun x =>
      allLanes.all (fun k => !(s.enabled k && (s.map.stations[x.station]).lacksLane k)))

def State.withPlan (s : State) (n : PlanNo) (p : List Byte) : Option (Setup × Code) :=
  match planSteps p with
  | none => none
  | some steps =>
    if s.planOk steps then
      some ({ s.setup with plans := upd s.setup.plans n (some steps) }, .accepted)
    else none

/-- R152, R175: the form check wants a length of 2 + 4 × s for the step count s it carries. -/
def State.loadPlan (s : State) (src : Byte) (p : List Byte) : State :=
  match p with
  | plan :: count :: steps =>
    if steps.length ≠ 4 * count.toNat then s.answer src kindLoadPlan .invalid
    else
      match byteFin 16 plan with
      | none => s.answer src kindLoadPlan .invalid
      | some n =>
        s.load src kindLoadPlan s.line.takesTables (s.setup.planLocks[n]) (s.withPlan n steps)
  | _ => s.answer src kindLoadPlan .invalid

/-- LOAD_PLAN (R150, R152). -/
def execLoadPlan (src : Byte) (p : List Byte) (s : State) : Result :=
  whenAddressed src s (fun s => s.loadPlan src p)

/-! ## LOAD_CUSTOMER (R153) -/

def Setup.withCustomer (x : Setup) (i : CustomerIndex) (valid : Byte) (base mask : CustomerId)
    (group : Byte) : Option (Setup × Code) :=
  match byteFlag valid with
  | none => none
  | some false => some ({ x with customers := upd x.customers i none }, .accepted)
  | some true =>
    match byteFin 16 group with
    | none => none
    | some g =>
      if g = 0 then none
      else some ({ x with customers := upd x.customers i (some ⟨base, mask, g⟩) }, .accepted)

def State.loadCustomer (s : State) (src : Byte) (p : List Byte) : State :=
  match p with
  | [index, valid, b1, b0, m1, m0, group] =>
    match byteFin 16 index with
    | none => s.answer src kindLoadCustomer .invalid
    | some i =>
      s.load src kindLoadCustomer s.line.takesCustomers false
        (s.setup.withCustomer i valid (word16Bits b1 b0) (word16Bits m1 m0) group)
  | _ => s.answer src kindLoadCustomer .invalid

/-- LOAD_CUSTOMER (R150, R153). -/
def execLoadCustomer (src : Byte) (p : List Byte) (s : State) : Result :=
  whenAddressed src s (fun s => s.loadCustomer src p)

/-! ## LOAD_LANES (R154) -/

/-- R154: an enabled lane has its diverter and its output at every present LANE station. -/
def StationMap.laneFitted (m : StationMap) (k : Lane) : Bool :=
  (m.diverters[k]).output.isSome && m.stations.toList.all (fun st => !st.lacksLane k)

/-- R154: the content check; the default article's range is content too (entry 19). -/
def lanesOf (m : StationMap) (plan mask policy article : Byte) : Option LanePlan :=
  match bytePlanKind plan, bytePolicy policy, byteFin 64 article with
  | some plan, some policy, some a =>
    if mask = 0 ∨ 16 ≤ mask.toNat then none
    else if allLanes.all (fun k => !mask.getLsbD k || (plan.holds k && m.laneFitted k)) then
      some ⟨plan, mask.setWidth 4, policy, a⟩
    else none
  | _, _, _ => none

def State.loadLanes (s : State) (src : Byte) (p : List Byte) : State :=
  match p with
  | [plan, mask, policy, article] =>
    s.load src kindLoadLanes (decide (s.line = .ready)) false
      ((lanesOf s.map plan mask policy article).map
        (fun l => ({ s.setup with lanes := some l }, .accepted)))
  | _ => s.answer src kindLoadLanes .invalid

/-- LOAD_LANES (R150, R154). -/
def execLoadLanes (src : Byte) (p : List Byte) (s : State) : Result :=
  whenAddressed src s (fun s => s.loadLanes src p)

/-! ## LOCK_ENTRY (R155) -/

/-- R155: the tables with the lock mark set; none where R150's form check refuses the telegram. -/
def Setup.lock (x : Setup) (table index : Byte) : Option Setup :=
  if table = 0 then
    (byteFin 64 index).map (fun a => { x with articleLocks := upd x.articleLocks a true })
  else if table = 1 then
    (byteFin 16 index).map (fun n => { x with planLocks := upd x.planLocks n true })
  else none

def State.lockEntry (s : State) (src : Byte) (p : List Byte) : State :=
  match p with
  | [table, index] =>
    match s.setup.lock table index with
    | none => s.answer src kindLockEntry .invalid
    | some x => s.load src kindLockEntry (decide (s.line ≠ .init)) false (some (x, .accepted))
  | _ => s.answer src kindLockEntry .invalid

/-- LOCK_ENTRY (R150, R155). -/
def execLockEntry (src : Byte) (p : List Byte) (s : State) : Result :=
  whenAddressed src s (fun s => s.lockEntry src p)

end Sys2Proof.Machine
end

