-- ==== Sys2Proof/Machine/Link.lean ====
section
/-! DEFINITION. The Telegram Link (chapter 11): RXD_BYTE, TELEGRAM_RECEIVED, TELEGRAM_SENT and UNKNOWN_KIND. -/

namespace Sys2Proof.Machine

/-! ## Acting on a telegram (R172, R174, R175) -/

/-- Section 11.5: a telegram addressed to the part is handed to the block its kind names; a kind the
part does not know is answered INVALID (R174). -/
def State.act (s : State) (t : Telegram) : State :=
  let k := t.kind
  let src := t.src
  let p := t.payload
  if k = kindAnnounce then s.takeEntry .announce p
  else if k = kindSeparator then s.takeEntry .separator p
  else if k = kindSetupGlobals then s.setupGlobals src p
  else if k = kindSetupStation then s.setupStation src p
  else if k = kindSetupOutput then s.setupOutput src p
  else if k = kindSetupDiverter then s.setupDiverter src p
  else if k = kindCommitMap then s.commitMap src p
  else if k = kindLoadArticle then s.loadArticle src p
  else if k = kindLoadPlan then s.loadPlan src p
  else if k = kindLoadCustomer then s.loadCustomer src p
  else if k = kindLoadLanes then s.loadLanes src p
  else if k = kindLockEntry then s.lockEntry src p
  else if k = kindLineMode then s.lineModePayload src p
  else if k = kindLineReset then s.lineReset src p
  else if k = kindStackCmd then s.stackCmdTelegram src p
  else if k = kindClearLane then s.clearLane src p
  else if k = kindForceOutput then s.forceOutputTelegram src p
  else if k = kindTallyFreeze then s.tallyFreeze src p
  else if k = kindTallyRead then s.tallyRead src p
  else if k = kindStatusRead then s.statusRead src p
  else if k = kindItemRead then s.itemRead src p
  else s.answer src k .invalid

/-- R172, line 3: what a part does on a broadcast LINE_RESET or LINE_MODE. -/
def State.actAll (t : Telegram) (s : State) : State :=
  if t.kind = kindLineReset then s.lineResetAll t.payload else s.lineModePayloadAll t.payload

/-- R172, line 3. -/
def Telegram.isBroadcast (t : Telegram) : Bool :=
  decide (t.dest = 31) && (decide (t.kind = kindLineReset) || decide (t.kind = kindLineMode))

/-- R172, line 2: the part is the telegram's destination. -/
def State.isDestination (s : State) (t : Telegram) : Bool :=
  decide (s.node ≠ 31) && decide (t.dest.toNat = s.node.toNat)

/-- R172: the first line of the table that fits a good telegram. -/
def State.dispose (s : State) (t : Telegram) : State :=
  if s.ownTelegram t.src then s
  else if s.isDestination t then s.act t
  else if t.isBroadcast then s.broadcast t (State.actAll t)
  else s.forward t

/-! ## Reception (R171) -/

/-- R171: the telegram and the two check bytes of a body that has reached byte 7 + n. -/
def completed : List Byte → Option (Telegram × List Byte)
  | _ :: _ :: dest :: src :: kind :: n :: rest =>
    if rest.length = n.toNat + 2 then some (⟨dest, src, kind, rest.take n.toNat⟩, rest.drop n.toNat)
    else none
  | _ => none

/-- R171: an abandoned telegram; the receiver hunts. -/
def Link.abandon (l : Link) : Link := { l with receiver := .hunt false }.countError

/-- R171, R172: a completed telegram is checked, and a good one disposed of. -/
def State.takeTelegram (s : State) : State :=
  match s.link.receiver with
  | .hunt _ => s
  | .body bytes =>
    match completed bytes with
    | none => s
    | some (t, check) =>
      if check = bytes16 (checkSum t.body) then
        (s.setLink { s.link with receiver := .hunt false }).dispose t
      else s.setLink s.link.abandon

/-- TELEGRAM_RECEIVED (R171, R172). The telegram that RXD_BYTE has completed leaves the receiver; with
none complete the event does not occur (entry 11). -/
def execTelegramReceived (s : State) : Result := whenUp s State.takeTelegram

/-- R171: one byte on RXD. -/
def Link.receive (l : Link) (b : Byte) (stopOk : Bool) : Link :=
  match l.receiver with
  | .hunt candidate =>
    if !stopOk then { l with receiver := .hunt false }
    else if candidate ∧ b = 0x2C then { l with receiver := .body [0xD3, 0x2C] }
    else { l with receiver := .hunt (decide (b = 0xD3)) }
  | .body bytes =>
    if !stopOk then l.abandon
    else if bytes.length = 5 ∧ 40 < b.toNat then l.abandon
    else { l with receiver := .body (bytes ++ [b]) }

/-- RXD_BYTE (R171). A telegram already complete is disposed of first (entry 11). -/
def execRxdByte (b : Byte) (stopOk : Bool) (s : State) : Result :=
  whenUp s (fun s =>
    let s := s.takeTelegram
    s.setLink (s.link.receive b stopOk))

/-! ## The outbound line (R173) -/

/-- R173: the last byte of the telegram on TXD has been sent; the next one starts. -/
def Link.sent (l : Link) : Link :=
  match l.transmitter with
  | .idle => l
  | .forwarding => { l with forward := l.forward.tail, transmitter := .idle }.start
  | .reporting => { l with reports := l.reports.tail, transmitter := .idle }.start

/-- TELEGRAM_SENT (R173). With no telegram on TXD the event does not occur (entry 30). -/
def execTelegramSent (s : State) : Result := whenUp s (fun s => s.setLink s.link.sent)

/-! ## UNKNOWN_KIND (R174) -/

/-- UNKNOWN_KIND (R174). A kind the part knows is no event of this row (entry 25). -/
def execUnknownKind (src kind : Byte) (s : State) : Result :=
  whenAddressed src s (fun s =>
    if inboundKinds.contains kind then s else s.answer src kind .invalid)

end Sys2Proof.Machine
end

