-- ==== Sys2Proof/Machine/Dispatch.lean ====
section
/-! DEFINITION. One arm per command of the table, each a direct call of its meaning. -/

namespace Sys2Proof.Machine

/-- A command's effect on everything but the queue of commands. -/
def exec (i : Instr) (s : State) : Host.Outcome State Fault Refusal :=
  match i with
  | .encoderPulse => Sys2Proof.Machine.execEncoderPulse s
  | .cover x => Sys2Proof.Machine.execCover x s
  | .uncover x => Sys2Proof.Machine.execUncover x s
  | .confirmPositionReached x => Sys2Proof.Machine.execConfirmPositionReached x s
  | .announceExpiry k => Sys2Proof.Machine.execAnnounceExpiry k s
  | .overlengthWait t => Sys2Proof.Machine.execOverlengthWait t s
  | .jam k => Sys2Proof.Machine.execJam k s
  | .foldFire t j => Sys2Proof.Machine.execFoldFire t j s
  | .divertOpenFire t => Sys2Proof.Machine.execDivertOpenFire t s
  | .divertCloseFire t => Sys2Proof.Machine.execDivertCloseFire t s
  | .busyUntilReached o => Sys2Proof.Machine.execBusyUntilReached o s
  | .shotTimerExpiry o => Sys2Proof.Machine.execShotTimerExpiry o s
  | .dischargeTimeout k => Sys2Proof.Machine.execDischargeTimeout k s
  | .sackRise k => Sys2Proof.Machine.execSackRise k s
  | .sclrRise k => Sys2Proof.Machine.execSclrRise k s
  | .drainCompletion => Sys2Proof.Machine.execDrainCompletion s
  | .coldReset na => Sys2Proof.Machine.execColdReset na s
  | .telegramReceived => Sys2Proof.Machine.execTelegramReceived s
  | .telegramSent => Sys2Proof.Machine.execTelegramSent s
  | .unknownKind src kind => Sys2Proof.Machine.execUnknownKind src kind s
  | .announce src p => Sys2Proof.Machine.execAnnounce src p s
  | .separator src p => Sys2Proof.Machine.execSeparator src p s
  | .setupGlobals src p => Sys2Proof.Machine.execSetupGlobals src p s
  | .setupStation src p => Sys2Proof.Machine.execSetupStation src p s
  | .setupOutput src p => Sys2Proof.Machine.execSetupOutput src p s
  | .setupDiverter src p => Sys2Proof.Machine.execSetupDiverter src p s
  | .commitMap src p => Sys2Proof.Machine.execCommitMap src p s
  | .loadArticle src p => Sys2Proof.Machine.execLoadArticle src p s
  | .loadPlan src p => Sys2Proof.Machine.execLoadPlan src p s
  | .loadCustomer src p => Sys2Proof.Machine.execLoadCustomer src p s
  | .loadLanes src p => Sys2Proof.Machine.execLoadLanes src p s
  | .lockEntry src p => Sys2Proof.Machine.execLockEntry src p s
  | .lineModeReady src bcast => Sys2Proof.Machine.execLineModeReady src bcast s
  | .lineModeRun src bcast => Sys2Proof.Machine.execLineModeRun src bcast s
  | .lineModeDrain src bcast => Sys2Proof.Machine.execLineModeDrain src bcast s
  | .lineModeService src bcast => Sys2Proof.Machine.execLineModeService src bcast s
  | .lineReset src bcast p => Sys2Proof.Machine.execLineReset src bcast p s
  | .stackCmdClose src lane value => Sys2Proof.Machine.execStackCmdClose src lane value s
  | .stackCmdStop src lane value => Sys2Proof.Machine.execStackCmdStop src lane value s
  | .stackCmdStopAfter src lane value => Sys2Proof.Machine.execStackCmdStopAfter src lane value s
  | .stackCmdResume src lane value => Sys2Proof.Machine.execStackCmdResume src lane value s
  | .stackCmdTarget src lane value => Sys2Proof.Machine.execStackCmdTarget src lane value s
  | .clearLane src p => Sys2Proof.Machine.execClearLane src p s
  | .forceOutputSet src out => Sys2Proof.Machine.execForceOutputSet src out s
  | .forceOutputClear src out => Sys2Proof.Machine.execForceOutputClear src out s
  | .forceOutputShot src out => Sys2Proof.Machine.execForceOutputShot src out s
  | .tallyFreeze src p => Sys2Proof.Machine.execTallyFreeze src p s
  | .tallyRead src p => Sys2Proof.Machine.execTallyRead src p s
  | .statusRead src p => Sys2Proof.Machine.execStatusRead src p s
  | .itemRead src p => Sys2Proof.Machine.execItemRead src p s
  | .rxdByte b stopOk => Sys2Proof.Machine.execRxdByte b stopOk s
  | .rstFalls => Sys2Proof.Machine.execRstFalls s

end Sys2Proof.Machine
end

