-- ==== Sys2Proof/WellFormed.lean ====
section
/-! DEFINITION. Which commands can come to the part: the checks that a command's operands must pass to be the
event or telegram of its row. -/

namespace Sys2Proof

/-- R170: a payload has at most 40 bytes. -/
def payloadFits (p : List Byte) : Bool := decide (p.length ≤ 40)

/-- R170: a source is a node that can send, 0 to 31 (a part strapped to 31 is a repeater). -/
def sourceFits (src : Byte) : Bool := decide (src.toNat ≤ 31)

/-- Section 11.5: the kind bytes of the inbound kinds (entry 33: two-digit telegram bytes are
hexadecimal). -/
def inboundKindBytes : List Byte :=
  [0x10, 0x11, 0x20, 0x21, 0x22, 0x23, 0x24, 0x30, 0x31, 0x32, 0x33, 0x34, 0x40, 0x41, 0x42, 0x43,
   0x44, 0x50, 0x51, 0x52, 0x53]

/-- R174: an unknown kind is none of the inbound kinds. -/
def kindIsUnknown (kind : Byte) : Bool := !inboundKindBytes.contains kind

/-- The operands can be those of the command's row. -/
def wellFormed : Instr → Bool
  | .encoderPulse => true
  | .cover _ => true
  | .uncover _ => true
  | .confirmPositionReached _ => true
  | .announceExpiry _ => true
  | .overlengthWait _ => true
  | .jam _ => true
  | .foldFire _ _ => true
  | .divertOpenFire _ => true
  | .divertCloseFire _ => true
  | .busyUntilReached _ => true
  | .shotTimerExpiry _ => true
  | .dischargeTimeout _ => true
  | .sackRise _ => true
  | .sclrRise _ => true
  | .drainCompletion => true
  | .coldReset _ => true
  | .telegramReceived => true
  | .telegramSent => true
  | .unknownKind src kind => sourceFits src && kindIsUnknown kind
  | .announce src p => sourceFits src && payloadFits p
  | .separator src p => sourceFits src && payloadFits p
  | .setupGlobals src p => sourceFits src && payloadFits p
  | .setupStation src p => sourceFits src && payloadFits p
  | .setupOutput src p => sourceFits src && payloadFits p
  | .setupDiverter src p => sourceFits src && payloadFits p
  | .commitMap src p => sourceFits src && payloadFits p
  | .loadArticle src p => sourceFits src && payloadFits p
  | .loadPlan src p => sourceFits src && payloadFits p
  | .loadCustomer src p => sourceFits src && payloadFits p
  | .loadLanes src p => sourceFits src && payloadFits p
  | .lockEntry src p => sourceFits src && payloadFits p
  | .lineModeReady src _ => sourceFits src
  | .lineModeRun src _ => sourceFits src
  | .lineModeDrain src _ => sourceFits src
  | .lineModeService src _ => sourceFits src
  | .lineReset src _ p => sourceFits src && payloadFits p
  | .stackCmdClose src _ _ => sourceFits src
  | .stackCmdStop src _ _ => sourceFits src
  | .stackCmdStopAfter src _ _ => sourceFits src
  | .stackCmdResume src _ _ => sourceFits src
  | .stackCmdTarget src _ _ => sourceFits src
  | .clearLane src p => sourceFits src && payloadFits p
  | .forceOutputSet src _ => sourceFits src
  | .forceOutputClear src _ => sourceFits src
  | .forceOutputShot src _ => sourceFits src
  | .tallyFreeze src p => sourceFits src && payloadFits p
  | .tallyRead src p => sourceFits src && payloadFits p
  | .statusRead src p => sourceFits src && payloadFits p
  | .itemRead src p => sourceFits src && payloadFits p
  | .rxdByte _ _ => true
  | .rstFalls => true

end Sys2Proof
end

