-- ==== Sys2Proof/Safety.lean ====
section
/-! DEFINITION. What a safe run keeps: the relations between pieces of state that the rules promise, and when nothing
is due at the present position. -/

namespace Sys2Proof.Safety

open Sys2Proof Sys2Proof.Machine

/-! ## Nothing due (R4) -/

/-- R11: a CLEARING qualifier that confirms at `p`. -/
def dueAt (p : Pos) : Qualifier → Bool
  | .clearing _ confirm => confirm = p
  | _ => false

/-- R4, R7: no wait stands at the present position, no timer expiry is due, and no drain is complete. -/
abbrev Quiet (s : State) : Prop :=
  (∀ k : Lane, dueAt s.position s.unit.lsQual[k] = false ∧ dueAt s.position s.unit.esQual[k] = false)
    ∧ (∀ t : Tag, ∀ r ∈ s.record t, r.overWait ≠ some s.position)
    ∧ (∀ e ∈ s.sched.entries, e.pos ≠ s.position)
    ∧ (∀ t : Tag, ∀ r ∈ s.record t, s.jamPosition r ≠ some s.position)
    ∧ (∀ o : OutId, s.sched.busy[o] ≠ some s.position)
    ∧ (∀ k : Lane, ∀ e ∈ (s.queues[k]).head?, s.expiryOf e ≠ s.position)
    ∧ (∀ o : OutId, (s.outs[o]).timer ≠ some 0)
    ∧ (∀ k : Lane, (s.stackers[k]).timer ≠ some 0)
    ∧ ¬(s.line = .drain ∧ s.drainDone = true)

/-- R46, R48: no TO_STACK record of lane `k` is overdue. -/
abbrev NoneOverdue (s : State) (k : Lane) : Prop :=
  ∀ t : Tag, ∀ r ∈ s.record t, r.lane = k → r.state = .toStack →
    ∀ p ∈ s.jamPosition r, ahead s.position p = true

/-! ## Bounds (R17, R171 to R173) -/

/-- R171: a body starts with the start mark, its length byte is at most 40, and it ends at byte
7 + n. -/
abbrev bodyFits (bytes : List Byte) : Prop :=
  bytes.take 2 = [0xD3, 0x2C] ∧ ∀ n ∈ bytes[5]?, n.toNat ≤ 40 ∧ bytes.length ≤ 8 + n.toNat

/-- R17, R171 to R173: the bounds of the queues, of the link's buffers and of its error count, and the transmitter on the head of
a queue that has one; with RST high it is idle only when nothing waits. -/
abbrev BoundsInv (s : State) : Prop :=
  (∀ k : Lane, (s.queues[k]).length ≤ 8) ∧
  s.link.forward.length ≤ 2 ∧ s.link.reports.length ≤ 16 ∧ s.link.errors ≤ 255
    ∧ (s.link.transmitter = .forwarding → s.link.forward ≠ [])
    ∧ (s.link.transmitter = .reporting → s.link.reports ≠ [])
    ∧ (s.pins.rst = true → s.link.transmitter = .idle → s.link.forward = [] ∧ s.link.reports = [])

/-- R170: every telegram that waits to be sent has a payload of at most 40 bytes; with what this
rests on: plans and records of at most 4 steps, a body within its frame, commands that can come. -/
abbrev FrameInv (s : State) : Prop :=
  (∀ t ∈ s.link.forward, t.payload.length ≤ 40) ∧ (∀ t ∈ s.link.reports, t.payload.length ≤ 40)
    ∧ (∀ bytes, s.link.receiver = .body bytes → bodyFits bytes)
    ∧ (∀ n : PlanNo, ∀ steps ∈ s.setup.plans[n], steps.length ≤ 4)
    ∧ (∀ t : Tag, ∀ r ∈ s.record t, r.steps.length ≤ 4)
    ∧ (∀ c ∈ s.pending, wellFormed c = true)

/-! ## The tally (R130, R133, R134, R137) -/

/-- R134: a row's counters hold at 16,777,215. -/
abbrev rowFits (r : TallyRow) : Prop := r.pieces ≤ 16777215 ∧ r.stackCount ≤ 16777215 ∧ r.rejects ≤ 16777215

/-- R130, R133, R137: at most 128 keyed rows, in strict key order, and at most 129 snapshot rows. -/
abbrev TallyInv (s : State) : Prop :=
  s.tally.live.length ≤ 128
    ∧ s.tally.live.Pairwise (fun x y => x.1.rank < y.1.rank)
    ∧ (∀ x ∈ s.tally.live, rowFits x.2) ∧ rowFits s.tally.overflow
    ∧ s.tally.snapRows.length ≤ 129 ∧ (∀ x ∈ s.tally.snapRows, rowFits x.row)

/-! ## The Tracking Table (R36, R56) -/

/-- R36: the entry order lists each live tag once and no other. -/
abbrev OrderInv (s : State) : Prop :=
  s.track.order.Nodup ∧ ∀ t : Tag, t ∈ s.track.order ↔ (s.record t).isSome

/-- R56: entered is the sum of the fates and the live count, modulo 16,777,216. -/
abbrev CounterInv (s : State) : Prop :=
  OrderInv s ∧ ∀ k : Lane,
    (s.track.counters[k]).entered = (s.track.counters[k]).arrived + (s.track.counters[k]).rejected
      + (s.track.counters[k]).jammed + (s.track.counters[k]).discarded + BitVec.ofNat 24 (s.liveCount k)

/-! ## The stackers (R108, R109, R111, R112, R117) -/

/-- A stack target, 4 to 255. -/
abbrev targetFits (n : Nat) : Prop := 4 ≤ n ∧ n ≤ 255

abbrev stackFits (o : OpenStack) : Prop :=
  1 ≤ o.pieces ∧ o.pieces ≤ 65535 ∧ o.strays ≤ o.pieces ∧ targetFits o.target

/-- R108, R109, R111, R117, R123: one stacker record. A stack in COLLECTING is below its target; a
stacker that discharges or pauses has no open stack; the shelf is empty in COLLECTING; the discharge
timer runs in LOWERING alone; a pause is pending on an open stack or a discharge. -/
abbrev stackerFits (st : Stacker) : Prop :=
  (∀ o ∈ st.stack, stackFits o)
    ∧ (st.phase = .collecting → (∀ o ∈ st.stack, o.pieces < o.target) ∧ st.shelf = [])
    ∧ (st.phase = .offered ∨ st.phase = .lowering ∨ st.phase = .paused → st.stack = none)
    ∧ st.shelf.length ≤ 3 ∧ (∀ p ∈ st.shelf, targetFits p.target)
    ∧ (st.override = 0 ∨ targetFits st.override)
    ∧ (st.timer ≠ none → st.phase = .lowering)
    ∧ (st.pausePending = true → (st.phase = .collecting ∧ st.stack.isSome) ∨ st.phase = .offered ∨ st.phase = .lowering)
    ∧ st.unplaced ≤ 65535

/-- The stackers, with the targets and shelf capacities that they draw on (R31, R147, R151). -/
abbrev StackerInv (s : State) : Prop :=
  (∀ k : Lane, stackerFits s.stackers[k])
    ∧ (∀ t : Tag, ∀ r ∈ s.record t, targetFits r.target)
    ∧ (∀ a : Article, ∀ row ∈ s.setup.articles[a], targetFits row.target)
    ∧ (∀ k : Lane, (s.setup.staging.diverters[k]).cap ≤ 3)
    ∧ (∀ m ∈ s.setup.committed, ∀ k : Lane, (m.diverters[k]).cap ≤ 3)

/-! ## The line (R149, R158, Section 2.7, R58) -/

/-- Section 2.7, R58, R80, R117: outside RUN and DRAIN no piece is tracked, queued or scheduled and no
stack is being discharged; every entry of the schedule has a live owner; and the line is in INIT exactly
while no map, and no Lane Plan, is in force. -/
abbrev IdleInv (s : State) : Prop :=
  (s.line.runs = false →
      (∀ t : Tag, s.record t = none) ∧ (∀ k : Lane, s.queues[k] = []) ∧ s.sched.entries = []
        ∧ ∀ k : Lane, (s.stackers[k]).phase ≠ .offered ∧ (s.stackers[k]).phase ≠ .lowering)
    ∧ (∀ e ∈ s.sched.entries, (s.record e.tag).isSome)
    ∧ (s.line = .init ↔ s.setup.committed = none) ∧ (s.setup.committed = none ↔ s.setup.lanes = none)

/-! ## The qualifiers (R8 to R10) -/

/-- R8 to R10: with RST high, a qualifier is COVERED exactly while its input is high. -/
abbrev SensorInv (s : State) : Prop :=
  s.pins.rst = true → ∀ k : Lane,
    (s.unit.lsQual[k] = .covered ↔ s.pins.ls[k] = true) ∧ (s.unit.esQual[k] = .covered ↔ s.pins.es[k] = true)

/-! ## The form of answers (R174) -/

/-- R170, R174: an ANSWER without detail or body, by its bytes. -/
def plainAnswer (s : State) (src kind code : Byte) : Telegram := ⟨src, s.nodeByte, 0x80, [kind, code, 0]⟩

/-- R49, R50: whether record `t'` is the one to which the starts_batch flag of `t` passes. -/
def takesBatch (s : State) (t : Tag) (r : ItemRecord) (t' : Tag) : Bool :=
  r.startsBatch && decide (s.nextOfLane t r.lane = some t')

/-- R166: what a stop leaves of a stacker: STOPPED with its timer stopped and no pause pending. -/
def stopped (st : Stacker) : Stacker :=
  { st with
    phase := .stopped
    timer := if st.phase = .stopped then st.timer else none
    pausePending := if st.phase = .stopped then st.pausePending else false }

/-! ## Drain closes (R128) -/

/-- R115, R128: the STACK_DONE notes of the drain closes, in lane order (entry 24). -/
def drainNotes (s : State) : List Note :=
  allLanes.filterMap fun k =>
    let st := s.stackers[k]
    if st.phase = .collecting then
      st.stack.map fun o => .stackDone k st.serial o.key o.pieces o.strays o.target o.batchStart .drain st.unplaced
    else none

/-- R128, R131: the tally after the drain closes, each stack credited under its key. -/
def drainTally (s : State) : Tally :=
  allLanes.foldl (fun t k => match (s.stackers[k]).phase, (s.stackers[k]).stack with
    | .collecting, some o => t.credit o.key o.pieces 1 0
    | _, _ => t) s.tally

/-! ## LINE_RESET (R164) -/

/-- R164: the line state that a LINE_RESET leaves. -/
def resetLine (s : State) : LineState := if s.setup.committed.isSome then .ready else .init

/-- R115, R129, R164: the STACK_DONE notes of a LINE_RESET, in lane order, each with its shelf counted in unplaced. -/
def resetNotes (s : State) : List Note :=
  allLanes.filterMap fun k =>
    let st := s.stackers[k]
    st.stack.map fun o => .stackDone k st.serial o.key o.pieces o.strays o.target o.batchStart .lineReset
      (min 65535 (st.unplaced + st.shelf.length))

/-- R131, R142: the tally after a LINE_RESET, each open stack credited under its key in lane order. -/
def resetTally (s : State) : Tally :=
  allLanes.foldl (fun t k => match (s.stackers[k]).stack with
    | some o => t.credit o.key o.pieces 1 0
    | none => t) s.tally

/-- R35, R57, R92, R107, R129, R142, R164: `u` is what a LINE_RESET leaves of `s`, in every block but the Telegram
Link and its report-loss flag. -/
abbrev ResetFrom (s u : State) : Prop :=
  u.line = resetLine s
    ∧ (∀ t : Tag, u.record t = none) ∧ u.track.order = []
    ∧ (∀ k : Lane, u.track.counters[k] = { s.track.counters[k] with
        discarded := (s.track.counters[k]).discarded + BitVec.ofNat 24 (s.liveCount k) })
    ∧ u.sched.entries = [] ∧ (∀ o : OutId, u.sched.busy[o] = none
        ∧ u.outs[o] = { s.outs[o] with hold := false, timer := none, openCount := 0 })
    ∧ (∀ k : Lane, u.queues[k] = [] ∧
        let st := s.stackers[k]
        u.stackers[k] = ⟨.collecting, none, [], false, st.override, none,
          if st.stack.isSome then st.serial + 1 else st.serial,
          if st.stack.isSome then 0 else min 65535 (st.unplaced + st.shelf.length)⟩)
    ∧ u.tally = resetTally s
    ∧ u.unit = s.unit ∧ u.setup = s.setup ∧ u.node = s.node ∧ u.pins = s.pins ∧ u.pending = s.pending

end Sys2Proof.Safety
end

