-- ==== Sys2Proof/Certificates/Slice0/Obligations.lean ====
section
/-! DEFINITION. The statements for the provers. Each docstring names the rules it formalises; `src` is a telegram's
source byte. A command row's telegram is acted on when RST is high and `s.addressable src` holds (entry 9). -/

open Sys2Proof Sys2Proof.Machine Sys2Proof.Safety

/-! ## The step and the whole machine -/

/-- The step runs the command at the front of the queue on the state with the queue's rest. -/
def Obligations.StepTakesTheFrontCommand : Prop :=
  ∀ (s : State) (c : Instr) (rest : List Instr), s.pending = c :: rest →
    step s = exec c { s with pending := rest }

/-- The model's choice (entries 3 and 4), with R6 and R7: on an empty queue, with nothing due, a step is one tick of
every running timer: each then has one tick fewer to go. -/
def Obligations.EmptyQueueStepTicksTheTimers : Prop :=
  ∀ s : State, s.pins.rst = true → s.pending = [] → Quiet s →
    step s = .next { s with
      outs := tabulate fun o => { s.outs[o] with timer := (s.outs[o]).timer.map (fun n => n - 1) }
      stackers := tabulate fun k => { s.stackers[k] with timer := (s.stackers[k]).timer.map (fun n => n - 1) } }

/-- No command stops the part, and none touches the queue of commands (entry 26). -/
def Obligations.EveryCommandAnswersANextState : Prop :=
  ∀ (c : Instr) (s : State), ∃ u, exec c s = .next u ∧ u.pending = s.pending

/-- Sections 1.6, 2.7, 3.9, 5.6, 6.5, 7.9, 8.5, 9.5, 11.7: what cold reset leaves, where the spec says. -/
def Obligations.ResetLeavesTheColdValues : Prop :=
  let s := State.reset
  s.line = .init ∧ s.loss = false ∧ s.unit.prescale = 1 ∧ s.unit.residue = 0 ∧ s.unit.position = 0
    ∧ s.unit.confirmSpan = 16
    ∧ (∀ k : Lane, s.queues[k] = [] ∧ s.track.counters[k] = ⟨0, 0, 0, 0, 0⟩)
    ∧ (∀ t : Tag, s.record t = none) ∧ s.track.order = [] ∧ s.sched.entries = []
    ∧ (∀ o : OutId, s.busyUntil o = 0 ∧ (s.outs[o]).role = .unused ∧ (s.outs[o]).timer = none
        ∧ (s.outs[o]).openCount = 0 ∧ (s.outs[o]).hold = false ∧ s.outLevel o = false)
    ∧ (∀ k : Lane, s.stackers[k] = ⟨.collecting, none, [], false, 0, none, 0, 0⟩ ∧ s.srdyLevel k = false
        ∧ s.holdLevel k = true)
    ∧ s.tally = ⟨[], ⟨0, 0, 0, false⟩, 0, 0, none, false, []⟩
    ∧ s.setup.staging.globals = none ∧ (∀ i : StationId, s.setup.staging.stations[i] = .absent)
    ∧ (∀ o : OutId, s.setup.staging.outputs[o] = none)
    ∧ (∀ k : Lane, (s.setup.staging.diverters[k]).output = none)
    ∧ s.setup.committed = none ∧ s.setup.lanes = none
    ∧ (∀ a : Article, s.setup.articles[a] = none ∧ s.setup.articleLocks[a] = false)
    ∧ (∀ n : PlanNo, s.setup.plans[n] = none ∧ s.setup.planLocks[n] = false)
    ∧ (∀ i : CustomerIndex, s.setup.customers[i] = none)
    ∧ s.link = ⟨.hunt false, [], [], .idle, 0⟩

/-! ## Invariants that every step keeps -/

/-- The invariants below hold right after reset. -/
def Obligations.ResetMeetsTheInvariants : Prop :=
  BoundsInv State.reset ∧ FrameInv State.reset ∧ TallyInv State.reset ∧ CounterInv State.reset
    ∧ StackerInv State.reset ∧ IdleInv State.reset ∧ SensorInv State.reset

/-- R17, R171 to R173: the bounds of the queues, of the link's buffers and of its error count, and its
transmitter. -/
def Obligations.StepKeepsTheBounds : Prop :=
  ∀ s u : State, BoundsInv s → step s = .next u → BoundsInv u

/-- R170: every telegram made or forwarded has a payload of at most 40 bytes. -/
def Obligations.StepKeepsTelegramsWithinTheFrame : Prop :=
  ∀ s u : State, FrameInv s → step s = .next u → FrameInv u

/-- R130, R133, R134, R137: the tally's rows stand in key order, at most 128, and hold at their limit. -/
def Obligations.StepKeepsTheTally : Prop :=
  ∀ s u : State, TallyInv s → step s = .next u → TallyInv u

/-- R36, R56: the entry order lists the live records, and the lane counters balance. -/
def Obligations.StepKeepsTheLaneCountersBalanced : Prop :=
  ∀ s u : State, CounterInv s → step s = .next u → CounterInv u

/-- R108, R109, R111, R112, R117, R123: the stacker records keep their relations. -/
def Obligations.StepKeepsTheStackers : Prop :=
  ∀ s u : State, StackerInv s → step s = .next u → StackerInv u

/-- Section 2.7, R58, R80, R117, R149, R158: nothing is in flight outside RUN and DRAIN, every fire entry
has a live owner, and the line is in INIT exactly while no map is committed. -/
def Obligations.StepKeepsTheIdleLineEmpty : Prop :=
  ∀ s u : State, IdleInv s → step s = .next u → IdleInv u

/-- R8 to R10: qualifiers follow their inputs. -/
def Obligations.StepKeepsQualifiersWithTheirInputs : Prop :=
  ∀ s u : State, SensorInv s → step s = .next u → SensorInv u

/-- R149, R155: outside INIT no command but COLD_RESET changes the committed map, a locked article row,
a locked plan or a lock mark that is set. -/
def Obligations.CommittedMapAndLockedEntriesStay : Prop :=
  ∀ (c : Instr) (s u : State), (∀ na, c ≠ .coldReset na) → s.line ≠ .init → exec c s = .next u →
    s.setup.committed ≠ none →
    u.setup.committed = s.setup.committed ∧ u.line ≠ .init
    ∧ (∀ a : Article, s.setup.articleLocks[a] = true →
        u.setup.articleLocks[a] = true ∧ u.setup.articles[a] = s.setup.articles[a])
    ∧ (∀ n : PlanNo, s.setup.planLocks[n] = true →
        u.setup.planLocks[n] = true ∧ u.setup.plans[n] = s.setup.plans[n])

/-! ## The belt (R1 to R4) -/

/-- R1, R2, R3: the residue and the position at a pulse, whatever is due; and, with nothing due, the
pulse changes nothing else. While RST is low no pulse is counted. -/
def Obligations.EncoderPulseCountsTheBelt : Prop :=
  ∀ s : State,
    (s.pins.rst = true → ∃ u, exec .encoderPulse s = .next u
      ∧ u.unit.residue = (if s.unit.residue + 1 < s.unit.prescale then s.unit.residue + 1 else 0)
      ∧ u.unit.position = (if s.unit.residue + 1 < s.unit.prescale then s.unit.position
          else s.unit.position + 1)
      ∧ (Quiet s → u = { s with
          unit := { s.unit with residue := u.unit.residue, position := u.unit.position } }))
    ∧ (s.pins.rst = false → exec .encoderPulse s = .next s)

/-! ## Sensor edges (R9 to R16) -/

/-- R9, R23, R37: a cover of a CLEAR lane sensor, where the edge goes to the table and a slot is free,
makes a record in the lowest free slot. -/
def Obligations.LeadingEdgeMakesARecord : Prop :=
  ∀ (s : State) (k : Lane) (t : Tag),
    s.pins.rst = true → s.pins.ls[k] = false → s.unit.lsQual[k] = .clear → s.line.runs = true →
    s.enabled k = true → s.record t = none → (∀ t' : Tag, t' < t → s.record t' ≠ none) →
    ∃ r u, exec (.cover (.ls k)) s = .next u ∧ u.record t = some r
      ∧ r.lane = k ∧ r.state = .entering ∧ r.lead = s.position ∧ r.headRef = s.position
      ∧ r.trail = none ∧ r.len = none ∧ r.curLen = none ∧ r.expected = none
      ∧ r.overWait = some (plus s.position 4096)
      ∧ u.track.order = s.track.order ++ [t]
      ∧ (∀ t' : Tag, t' ≠ t → u.record t' = s.record t')
      ∧ u.track.counters = upd s.track.counters k
          { s.track.counters[k] with entered := (s.track.counters[k]).entered + 1 }
      ∧ (r.reason = none → u.sched = s.sched)
      ∧ (∀ o, r.reason ≠ none → (s.map.diverters[k]).output = some o →
          u.sched = { s.sched with entries := (insertEntry s.position
            ⟨minus (plus s.position (s.map.diverters[k]).dist) (s.map.diverters[k]).openLead, .divertOpen, o, t⟩
            s.sched.entries) })
      ∧ u.pins = { s.pins with ls := upd s.pins.ls k true }
      ∧ u.unit = { s.unit with lsQual := upd s.unit.lsQual k .covered }
      ∧ (∀ k' : Lane, k' ≠ k → u.queues[k'] = s.queues[k'])
      ∧ u.line = s.line ∧ u.node = s.node ∧ u.outs = s.outs ∧ u.stackers = s.stackers
      ∧ u.tally = s.tally ∧ u.setup = s.setup ∧ u.freeIndex = s.freeIndex

/-- R24 to R32: what a leading edge binds. The separators at the head are consumed; the announcement
behind them, or the default article where there is none, gives the record its article; its row and
plan are copied; its group is that of the first valid Customer Map entry, by index, whose base agrees with the
customer id wherever its mask is set, and 0 without one; the first binding-time reason that applies is set. No entry
behind is due here (R22). -/
def Obligations.LeadingEdgeBindsTheQueue : Prop :=
  ∀ (s : State) (k : Lane) (t : Tag) (seps rest : List QueueEntry) (bound : Option (Article × CustomerId × Pos)),
    s.pins.rst = true → s.pins.ls[k] = false → s.unit.lsQual[k] = .clear → s.line.runs = true →
    s.enabled k = true → s.record t = none → (∀ t' : Tag, t' < t → s.record t' ≠ none) →
    (∀ e ∈ seps, e.isSeparator = true) →
    s.queues[k] = seps ++ (match bound with
      | some b => .announce b.1 b.2.1 b.2.2 :: rest
      | none => []) →
    (bound = none → rest = []) → (∀ e ∈ rest.head?, s.expiryOf e ≠ s.position) →
    ∃ r u, exec (.cover (.ls k)) s = .next u ∧ u.record t = some r
      ∧ r.startsBatch = decide (seps ≠ [])
      ∧ r.anonymous = bound.isNone ∧ r.customer = bound.map (fun b => b.2.1)
      ∧ r.article = (bound.map (fun b => b.1)).getD s.lanePlan.default
      ∧ (bound = none → r.group = 0)
      ∧ (∀ b, bound = some b →
          let agrees := fun e : CustomerEntry => b.2.1 &&& e.mask = e.base &&& e.mask
          (∀ (i : CustomerIndex) (e : CustomerEntry), s.setup.customers[i] = some e → agrees e →
            (∀ i' : CustomerIndex, i' < i → ∀ e' ∈ s.setup.customers[i'], ¬agrees e') → r.group = e.group)
          ∧ ((∀ i : CustomerIndex, ∀ e ∈ s.setup.customers[i], ¬agrees e) → r.group = 0))
      ∧ (∀ row, s.setup.articles[r.article] = some row →
          r.route = row.route ∧ r.min = row.min ∧ r.max = row.max ∧ r.target = row.target
          ∧ r.steps = if row.route = .stack then
              ((s.setup.plans[row.plan]).getD []).map (fun x => ⟨x.station, x.num, x.den, x.trim, none, none, .pending⟩)
            else [])
      ∧ (s.setup.articles[r.article] = none →
          r.route = .reject ∧ r.min = 1 ∧ r.max = 4095 ∧ r.target = 4 ∧ r.steps = [])
      ∧ r.reason = (if (s.stackers[k]).phase = .stopped then some .laneStopped
          else if bound.isNone ∧ s.lanePlan.policy = .reject then some .anonymous
          else if r.route = .reject then some .articleOff else none)
      ∧ u.queues = upd s.queues k rest ∧ u.link = s.link ∧ u.loss = s.loss

/-- R9 to R11, R14 to R16, R40: sensor events that reach no record: a hole; an edge that warns, or is
discarded; an uncover (with no overlength wait standing here, entry 14); a confirmation of an entry
sensor, or one that the line or the lane discards or that finds no ENTERING record; a confirm position
that is not the present one. -/
def Obligations.SensorEdgesWithoutARecord : Prop :=
  ∀ s : State, s.pins.rst = true →
    (∀ x m p, s.pinLevel x = false → s.qual x = .clearing m p →
      exec (.cover x) s = .next ((s.setPin x true).setQual x .covered))
    ∧ (∀ k : Lane, s.pins.ls[k] = false → s.unit.lsQual[k] = .clear → s.inPlan k = true →
        (s.line.runs = false ∨ s.enabled k = false) →
        exec (.cover (.ls k)) s =
          .next (((s.setPin (.ls k) true).setQual (.ls k) .covered).emit (.fault k .unexpectedPiece s.position)))
    ∧ (∀ k : Lane, s.pins.ls[k] = false → s.unit.lsQual[k] = .clear → s.inPlan k = false →
        exec (.cover (.ls k)) s = .next ((s.setPin (.ls k) true).setQual (.ls k) .covered))
    ∧ (∀ k : Lane, s.pins.es[k] = false → s.unit.esQual[k] = .clear → (s.line.runs = false ∨ s.enabled k = false) →
        exec (.cover (.es k)) s = .next ((s.setPin (.es k) true).setQual (.es k) .covered))
    ∧ (∀ x, s.pinLevel x = true → s.qual x = .covered → (∀ t : Tag, ∀ r ∈ s.record t, r.overWait ≠ some s.position) →
        exec (.uncover x) s = .next ((s.setPin x false).setQual x
          (.clearing s.position (s.position + BitVec.ofNat 24 s.unit.confirmSpan))))
    ∧ (∀ x m p, s.qual x = .clearing m p → p ≠ s.position → exec (.confirmPositionReached x) s = .next s)
    ∧ (∀ x m, s.qual x = .clearing m s.position →
        (∀ k, x = .ls k → s.line.runs = false ∨ s.enabled k = false
          ∨ ∀ t : Tag, ∀ r ∈ s.record t, ¬(r.lane = k ∧ r.state = .entering)) →
        exec (.confirmPositionReached x) s = .next (s.setQual x .clear))

/-- R23, R38: with every slot live, a leading edge consumes the queue as a binding does, one UNTRACKED note for each
entry, then raises TRACK_OVERRUN (the notes in this order: the model's reading, entry 16), moves no counter, adds no
record and stops the lane. -/
def Obligations.OverrunStopsTheLane : Prop :=
  ∀ (s : State) (k : Lane),
    s.pins.rst = true → s.pins.ls[k] = false → s.unit.lsQual[k] = .clear → s.line.runs = true →
    s.enabled k = true → (∀ t : Tag, s.record t ≠ none) → NoneOverdue s k →
    (∀ e ∈ (bindQueue s.queues[k]).rest.head?, s.expiryOf e ≠ s.position) →
    let behind := (s.queues[k]).dropWhile QueueEntry.isSeparator
    let notes := ((s.queues[k]).takeWhile QueueEntry.isSeparator ++ behind.head?.toList).map (fun e => match e with
      | .announce a c stamp => Note.lost (byteOf k) .untracked .announce (some (byteOf a)) (some c) stamp s.position
      | .separator stamp => Note.lost (byteOf k) .untracked .separator none none stamp s.position)
    let v := (notes ++ [Note.fault k .trackOverrun s.position]).foldl State.emit s
    ∃ u, exec (.cover (.ls k)) s = .next u
      ∧ u.track = (s.convertLane k).track ∧ u.sched = (s.convertLane k).sched
      ∧ u.track.counters = s.track.counters ∧ u.track.order = s.track.order
      ∧ u.stackers = upd s.stackers k (stopped s.stackers[k])
      ∧ u.queues = upd s.queues k behind.tail
      ∧ u.pins = { s.pins with ls := upd s.pins.ls k true }
      ∧ u.unit = { s.unit with lsQual := upd s.unit.lsQual k .covered }
      ∧ u.link = v.link ∧ u.loss = v.loss
      ∧ u.line = s.line ∧ u.node = s.node ∧ u.outs = s.outs ∧ u.tally = s.tally ∧ u.setup = s.setup

/-- R40 to R42: the confirmed piece goes to its diverter: for its reason, for its length, or as overlong.
`n` is the wrap distance from lead to trail, and `o` the lane's diverter. That the steps of a piece diverted for the
reason it carries, or as overlong, stay PENDING is the model's choice (entry 21). -/
def Obligations.ConfirmationDivertsThePiece : Prop :=
  ∀ (s : State) (k : Lane) (t : Tag) (r : ItemRecord) (m : Pos) (o : OutId),
    s.pins.rst = true → s.unit.lsQual[k] = .clearing m s.position → s.line.runs = true →
    s.enabled k = true → s.oldest k .entering = some t → s.record t = some r →
    (s.map.diverters[k]).output = some o →
    let d := s.map.diverters[k]
    let n := wrapDist r.lead m
    let len := if n ≤ 4096 then some n else none
    let r' := { r with trail := some m, len := len, curLen := len, overWait := none, state := .diverting }
    let openPos := minus (plus r.lead d.dist) d.openLead
    let s' := s.setQual (.ls k) .clear
    let close : FireEntry := ⟨plus (plus m d.dist) d.closeTrail, .divertClose, o, t⟩
    let cancelled := r.steps.map (fun x => { x with status := .cancelled })
    (r.reason ≠ none →
      exec (.confirmPositionReached (.ls k)) s = .next ((s'.setRecord t r').insertEntry close))
    ∧ (r.reason = none → 4095 < n →
        exec (.confirmPositionReached (.ls k)) s = .next (((s'.setRecord t { r' with reason := some .oversize }).insertEntry
          ⟨if ahead s.position openPos then openPos else s.position + 1, .divertOpen, o, t⟩).insertEntry close))
    ∧ (r.reason = none → n ≤ 4095 → n < r.min →
        exec (.confirmPositionReached (.ls k)) s = .next (((s'.setRecord t { r' with
          reason := some .undersize, steps := cancelled }).insertEntry
            ⟨openPos, .divertOpen, o, t⟩).insertEntry close))
    ∧ (r.reason = none → n ≤ 4095 → r.min ≤ n → r.max < n →
        exec (.confirmPositionReached (.ls k)) s = .next (((s'.setRecord t { r' with
          reason := some .oversize, steps := cancelled }).insertEntry
            ⟨openPos, .divertOpen, o, t⟩).insertEntry close))

/-- R43, R46: a piece that is not folded goes to TO_STACK, expected stack_dist behind its head. -/
def Obligations.ConfirmationSendsAnUnfoldedPieceToStack : Prop :=
  ∀ (s : State) (k : Lane) (t : Tag) (r : ItemRecord) (m : Pos),
    s.pins.rst = true → s.unit.lsQual[k] = .clearing m s.position → s.line.runs = true →
    s.enabled k = true → s.oldest k .entering = some t → s.record t = some r → r.reason = none →
    r.min ≤ wrapDist r.lead m → wrapDist r.lead m ≤ r.max → wrapDist r.lead m ≤ 4095 →
    (r.route = .flat ∨ (r.route = .stack ∧ r.steps = [])) →
    ahead s.position (plus (plus r.headRef s.map.params.stackDist) (s.map.params.tol + 1)) = true →
    exec (.confirmPositionReached (.ls k)) s = .next ((s.setQual (.ls k) .clear).setRecord t { r with
      trail := some m, len := some (wrapDist r.lead m), curLen := some (wrapDist r.lead m), overWait := none
      state := .toStack, expected := some (plus r.headRef s.map.params.stackDist) })

/-! ## Folds (R60 to R73, R86, R87) -/

/-- R60, R61, R68 to R71, R86, R87: a piece to be folded either has every fold booked and goes to FOLDING, or is
turned off with every step CANCELLED and the reason of its first failure. `late` is R68; `booked` is R67 and R69, an
entry at each step's fire position on its station's output for the lane; `passes` is R86, with the busy span of the
output's station; what `computeSteps` computes is stated in FoldOffsetIsRoundedTrimmedAndClamped. The last clause holds
in no run (R152, R154): a step without an output for the lane is the model's CONFLICT (entry 20). -/
def Obligations.ConfirmationBooksEveryFoldOrNone : Prop :=
  ∀ (s : State) (k : Lane) (t : Tag) (r : ItemRecord) (m : Pos) (o : OutId) (es : List FireEntry),
    s.pins.rst = true → s.unit.lsQual[k] = .clearing m s.position → s.line.runs = true →
    s.enabled k = true → s.oldest k .entering = some t → s.record t = some r → r.reason = none →
    r.min ≤ wrapDist r.lead m → wrapDist r.lead m ≤ r.max → wrapDist r.lead m ≤ 4095 →
    r.route = .stack → r.steps ≠ [] → (s.map.diverters[k]).output = some o →
    let n := wrapDist r.lead m
    let d := s.map.diverters[k]
    let c := computeSteps s.map r.lead n none r.steps
    let late := ∀ f ∈ c.1.head?.bind (fun x => x.fire),
      8388607 < wrapDist s.position f ∨ wrapDist s.position f < s.map.params.arm
    let out := fun x : FoldStep => match s.map.stations[x.station] with
      | .absent => none
      | .lane _ _ outs => outs[k]
      | .shared _ _ a => some a
    let booked := (c.1.zip allSteps).map (fun y => match y.1.fire, out y.1 with
      | some p, some a => some (⟨p, .fold y.2, a, t⟩ : FireEntry)
      | _, _ => none)
    let span := fun a : OutId => (((s.map.stations.toList.find? (fun x => x.outputs.contains a)).map Station.busy).getD 0)
    let passes := fun e : FireEntry =>
      wrapDist ((s.sched.busy[e.out]).getD s.position) e.pos ≤ 8388607
        ∧ ∀ q ∈ s.sched.entries, q.out = e.out → (∃ j, q.kind = .fold j) →
          span e.out ≤ wrapDist q.pos e.pos ∧ span e.out ≤ wrapDist e.pos q.pos
    let r' := { r with trail := some m, len := some n, curLen := some n, overWait := none }
    let s' := s.setQual (.ls k) .clear
    let rejected := fun reason => ((s'.setRecord t { r' with
        reason := some reason, steps := c.1.map (fun x => { x with status := .cancelled })
        state := .diverting }).insertEntry
          ⟨minus (plus r.lead d.dist) d.openLead, .divertOpen, o, t⟩).insertEntry
          ⟨plus (plus m d.dist) d.closeTrail, .divertClose, o, t⟩
    (c.2 = false → exec (.confirmPositionReached (.ls k)) s = .next (rejected .undersize))
    ∧ (c.2 = true → late → exec (.confirmPositionReached (.ls k)) s = .next (rejected .lateFold))
    ∧ (c.2 = true → ¬late → booked = es.map some → (∀ e ∈ es, passes e) →
        exec (.confirmPositionReached (.ls k)) s =
          .next ((es.foldl State.insertEntry s').setRecord t { r' with steps := c.1, state := .folding }))
    ∧ (c.2 = true → ¬late → booked = es.map some → (∃ e ∈ es, ¬passes e) →
        exec (.confirmPositionReached (.ls k)) s = .next (rejected .conflict))
    ∧ (c.2 = true → ¬late → none ∈ booked →
        exec (.confirmPositionReached (.ls k)) s = .next (rejected .conflict))

/-- R62 to R66: on a packet of at least 2M + 1 pulses the raw offset is the nearest whole number, a half rounded up; the
offset is the trimmed one, clamped to the margins; the longer portion is shorter than the packet; and the computation
writes this offset and the fire position to the step and goes on with the longer portion. On a shorter packet it stops,
and leaves this step and the later ones as they were; with no step left it has computed every one. -/
def Obligations.FoldOffsetIsRoundedTrimmedAndClamped : Prop :=
  ∀ (len margin : Nat) (x : FoldStep), 0 < x.den → 0 < margin →
    let raw := rawOffset len x.num x.den
    let d := foldOffset margin len x
    (2 * margin + 1 ≤ len →
      (2 * x.den * raw ≤ 2 * len * x.num + x.den ∧ 2 * len * x.num + x.den < 2 * x.den * (raw + 1))
      ∧ ((margin : Int) ≤ raw + x.trim → (raw : Int) + x.trim ≤ (len : Int) - margin → (d : Int) = raw + x.trim)
      ∧ ((raw : Int) + x.trim < margin → d = margin)
      ∧ ((len : Int) - margin < raw + x.trim → d = len - margin)
      ∧ margin ≤ d ∧ d ≤ len - margin
      ∧ foldedLength len d = max d (len - d) ∧ (len + 1) / 2 ≤ foldedLength len d
      ∧ foldedLength len d ≤ len - margin ∧ foldedLength len d < len)
    ∧ ∀ (m : StationMap) (lead : Pos) (prev : Option (Pos × Nat)) (rest : List FoldStep), m.params.margin = margin →
        (2 * margin + 1 ≤ len →
          let dist := (m.stations[x.station]).distance
          let fire := match prev with
            | none => lead + BitVec.ofNat 24 dist + BitVec.ofNat 24 d
            | some (before, there) => before + BitVec.ofNat 24 dist - BitVec.ofNat 24 there + BitVec.ofNat 24 d
          let r := computeSteps m lead (max d (len - d)) (some (fire, dist)) rest
          computeSteps m lead len prev (x :: rest) = ({ x with d := some d, fire := some fire } :: r.1, r.2))
        ∧ (len < 2 * margin + 1 → computeSteps m lead len prev (x :: rest) = (x :: rest, false))
        ∧ computeSteps m lead len prev [] = ([], true)

/-- R66: when every step is computed, step `j` fires at lead + dist(s_j) + d_0 + … + d_j, so step 0 at
lead + dist(s_0) + d_0, and each later step the given distance beyond the step before it. -/
def Obligations.FireChainUnrolls : Prop :=
  ∀ (m : StationMap) (lead : Pos) (len : Nat) (steps steps' : List FoldStep),
    computeSteps m lead len none steps = (steps', true) →
    steps'.length = steps.length ∧
    ∀ (j : Nat) (x : FoldStep), steps'[j]? = some x →
      ∃ d, x.d = some d ∧ x.fire = some (lead + BitVec.ofNat 24 (m.stations[x.station]).distance
        + BitVec.ofNat 24 (((steps'.take (j + 1)).map (fun y => y.d.getD 0)).sum))
      ∧ ∀ (y : FoldStep) (dy : Nat) (f fy : Pos), steps'[j + 1]? = some y → y.d = some dy → x.fire = some f → y.fire = some fy →
          fy = f + BitVec.ofNat 24 (m.stations[y.station]).distance
            - BitVec.ofNat 24 (m.stations[x.station]).distance + BitVec.ofNat 24 dy
          ∧ ((m.stations[x.station]).distance < (m.stations[y.station]).distance →
              (m.stations[y.station]).distance ≤ 65535 → 1 ≤ m.params.margin → len ≤ 4095 →
              1 ≤ dy ∧ ahead f fy = true
              ∧ wrapDist f fy = (m.stations[y.station]).distance - (m.stations[x.station]).distance + dy)

/-- R45, R73, R84, R97, R98: a FOLD fire. The entry leaves, the shot starts, or starts anew, with the full shot
length, the output is BUSY for B, the step is FIRED, R and Lc move on; with no step PENDING the record goes to
TO_STACK, and no other record moves. -/
def Obligations.FoldFireMovesTheRecordOn : Prop :=
  ∀ (s : State) (t : Tag) (j : StepNo) (e : FireEntry) (r : ItemRecord) (x : FoldStep) (d n : Nat) (f : Pos),
    s.pins.rst = true → s.dueEntry t (.fold j) = some e → s.record t = some r → r.state = .folding →
    r.steps[j.1]? = some x → x.d = some d → x.fire = some f → r.curLen = some n →
    let steps := r.steps.set j.1 { x with status := .fired }
    let r' := { r with steps := steps, headRef := minus f (s.map.stations[x.station]).distance, curLen := some (max d (n - d)) }
    let s' := { s with
      outs := upd s.outs e.out { s.outs[e.out] with timer := some (s.outs[e.out]).shot }
      sched := ⟨s.sched.entries.erase e, upd s.sched.busy e.out (some (plus s.position (s.map.busySpan e.out)))⟩ }
    ((∃ y ∈ steps, y.status = .pending) → exec (.foldFire t j) s = .next (s'.setRecord t r'))
    ∧ ((∀ y ∈ steps, y.status ≠ .pending) →
        ahead s.position (plus (plus r'.headRef s.map.params.stackDist) (s.map.params.tol + 1)) = true →
        exec (.foldFire t j) s = .next (s'.setRecord t { r' with
          state := .toStack, expected := some (plus r'.headRef s.map.params.stackDist) }))

/-! ## Waits on the position -/

/-- R21, R22: the heads that expire at the present position leave, one note each; with the head not
due nothing happens. -/
def Obligations.ExpiryRemovesTheDueHeads : Prop :=
  ∀ (s : State) (k : Lane) (due rest : List QueueEntry), s.pins.rst = true →
    s.queues[k] = due ++ rest → (∀ e ∈ due, s.expiryOf e = s.position) →
    (∀ e ∈ rest.head?, s.expiryOf e ≠ s.position) →
    exec (.announceExpiry k) s = .next ((due.map (fun e => match e with
      | .announce a c stamp =>
        Note.lost (byteOf k) .expired .announce (some (byteOf a)) (some c) stamp s.position
      | .separator stamp => Note.lost (byteOf k) .expired .separator none none stamp s.position)).foldl State.emit
        { s with queues := upd s.queues k rest })

/-- R44: at lead + 4,096 a piece that covers its sensor takes OVERSIZE and its DIVERT_OPEN, unless it
has a reason; otherwise the wait ends with no effect. -/
def Obligations.OverlengthWaitDecides : Prop :=
  ∀ (s : State) (t : Tag) (r : ItemRecord) (o : OutId), s.pins.rst = true → s.record t = some r →
    r.overWait = some s.position → (s.map.diverters[r.lane]).output = some o →
    (s.unit.lsQual[r.lane] = .covered → r.reason = none →
      exec (.overlengthWait t) s = .next ((s.setRecord t { r with
        overWait := none, reason := some .oversize }).insertEntry
          ⟨minus (plus r.lead (s.map.diverters[r.lane]).dist) (s.map.diverters[r.lane]).openLead, .divertOpen, o, t⟩))
    ∧ (s.unit.lsQual[r.lane] ≠ .covered ∨ r.reason ≠ none →
      exec (.overlengthWait t) s = .next (s.setRecord t { r with overWait := none }))

/-- R48, R50, R128, R166: a jam retires the record, counts it, takes the drain closes where it was the last in DRAIN,
reports it, stops the lane and converts what is left of it. No other record of the lane is overdue. That the drain
closes come before the fault is the model's choice (entry 12). -/
def Obligations.JamRetiresAndStops : Prop :=
  ∀ (s : State) (k : Lane) (t : Tag) (r : ItemRecord), s.pins.rst = true →
    s.oldest k .toStack = some t → s.record t = some r → s.jamPosition r = some s.position →
    (∀ t' : Tag, t' ≠ t → ∀ x ∈ s.record t', x.lane = k → x.state = .toStack →
      ∀ p ∈ s.jamPosition x, ahead s.position p = true) →
    ∃ s' u : State, exec (.jam k) s = .next u
      ∧ s'.record t = none ∧ s'.track.order = s.track.order.filter (fun x => decide (x ≠ t))
      ∧ (∀ t' : Tag, t' ≠ t → s'.record t' =
          if takesBatch s t r t' then (s.record t').map (fun x => { x with startsBatch := true }) else s.record t')
      ∧ s'.track.counters = upd s.track.counters r.lane
          { s.track.counters[r.lane] with jammed := (s.track.counters[r.lane]).jammed + 1 }
      ∧ s'.sched = { s.sched with entries := s.sched.entries.filter (fun e => decide (e.tag ≠ t)) }
      ∧ s' = { s with track := s'.track, sched := s'.sched }
      ∧ (let w := s'.drainCloses
        u = { s with
          track := (s'.convertLane k).track, sched := (s'.convertLane k).sched
          stackers := upd w.stackers k (stopped w.stackers[k]), tally := w.tally
          link := (w.emit (.fault k .jam s.position)).link, loss := (w.emit (.fault k .jam s.position)).loss })

/-- R51, R52: what the lane-stop conversion makes of each record; that no FOLD entry of a converted record stays; and
that each converted record has its DIVERT_OPEN booked, and its DIVERT_CLOSE where its length is known. That a converted
TO_STACK record keeps its expected arrival is the model's choice (entry 21). -/
def Obligations.LaneStopConversion : Prop :=
  ∀ (s : State) (k : Lane), OrderInv s →
    let d := s.map.diverters[k]
    let openPos := fun r : ItemRecord => minus (plus r.headRef d.dist) d.openLead
    let closePos := fun (r : ItemRecord) (n : Nat) => plus (plus (plus r.headRef n) d.dist) d.closeTrail
    let turned := fun r : ItemRecord => decide (r.lane = k ∧ r.state ≠ .diverting ∧ r.reason = none)
      && ahead s.position (openPos r)
    let booked := fun t : Tag => match s.record t, d.output with
      | some r, some o =>
        if turned r then ⟨openPos r, .divertOpen, o, t⟩ :: (match r.curLen with
          | some n => [⟨closePos r n, .divertClose, o, t⟩]
          | none => [])
        else []
      | _, _ => ([] : List FireEntry)
    (∀ t : Tag, (s.convertLane k).record t = (s.record t).map (fun r =>
      if turned r then
        { r with
          steps := r.steps.map (fun x => if x.status = .pending then { x with status := .cancelled } else x)
          reason := some .laneStopped
          state := if r.curLen.isSome then .diverting else r.state }
      else r))
    ∧ (∀ e ∈ (s.convertLane k).sched.entries, (∃ j, e.kind = .fold j) →
        e ∈ s.sched.entries ∧ (s.convertLane k).record e.tag = s.record e.tag)
    ∧ (∀ e ∈ s.sched.entries, (s.convertLane k).record e.tag = s.record e.tag → e ∈ (s.convertLane k).sched.entries)
    ∧ ((s.convertLane k).sched.entries).Perm (s.sched.entries.filter (fun e => !((match e.kind with
          | .fold _ => true
          | _ => false) && (s.record e.tag).any turned)) ++ s.track.order.flatMap booked)
    ∧ s.convertLane k = { s with track := (s.convertLane k).track, sched := (s.convertLane k).sched }
    ∧ (s.convertLane k).track.order = s.track.order ∧ (s.convertLane k).track.counters = s.track.counters
    ∧ (s.convertLane k).sched.busy = s.sched.busy

/-- R7, R82, R84, R97, R99: an open fire counts; a busy-until that is reached follows; a shot whose last tick has been
counted ends, and one with ticks to go, or none running, does not (when the sender may put the event is the model's
choice, entry 5). -/
def Obligations.OpenFireBusyEndAndShotEnd : Prop :=
  ∀ s : State, s.pins.rst = true →
    (∀ t e, s.dueEntry t .divertOpen = some e →
      exec (.divertOpenFire t) s = .next { s with
        outs := upd s.outs e.out { s.outs[e.out] with openCount := (s.outs[e.out]).openCount + 1 }
        sched := { s.sched with entries := s.sched.entries.erase e } })
    ∧ (∀ o : OutId, s.sched.busy[o] = some s.position →
        exec (.busyUntilReached o) s = .next { s with sched := { s.sched with busy := upd s.sched.busy o none } })
    ∧ (∀ o : OutId, (s.outs[o]).timer = some 0 → exec (.shotTimerExpiry o) s =
        .next { s with outs := upd s.outs o { s.outs[o] with timer := none } })
    ∧ (∀ o : OutId, (s.outs[o]).timer ≠ some 0 → exec (.shotTimerExpiry o) s = .next s)

/-- R49, R50, R82, R83, R99, R128, R132: a close fire retires its record REJECTED, takes the drain closes where it was the
last in DRAIN, credits one reject and reports it; the count falls unless the record's own open has not fired. That the
drain closes come before the credit and the note is the model's choice (entry 12). -/
def Obligations.CloseFireRejectsItsRecord : Prop :=
  ∀ (s : State) (t : Tag) (e : FireEntry) (r : ItemRecord), s.pins.rst = true →
    s.dueEntry t .divertClose = some e → s.record t = some r →
    ∃ s' u : State, exec (.divertCloseFire t) s = .next u
      ∧ s'.record t = none ∧ s'.track.order = s.track.order.filter (fun x => decide (x ≠ t))
      ∧ (∀ t' : Tag, t' ≠ t → s'.record t' =
          if takesBatch s t r t' then (s.record t').map (fun x => { x with startsBatch := true }) else s.record t')
      ∧ s'.track.counters = upd s.track.counters r.lane
          { s.track.counters[r.lane] with rejected := (s.track.counters[r.lane]).rejected + 1 }
      ∧ s'.sched = { s.sched with entries := s.sched.entries.filter (fun x => decide (x.tag ≠ t)) }
      ∧ s'.outs = (if s.sched.entries.any (fun x => decide (x.tag = t ∧ x.kind = .divertOpen)) then s.outs
          else upd s.outs e.out { s.outs[e.out] with openCount := (s.outs[e.out]).openCount - 1 })
      ∧ s' = { s with track := s'.track, sched := s'.sched, outs := s'.outs }
      ∧ (let w := s'.drainCloses
        let v := w.emit (.reject r.lane t ⟨r.group, r.article⟩ r.customer r.reason r.lead r.len s.position)
        u = { s' with
          stackers := w.stackers, tally := w.tally.credit ⟨r.group, r.article⟩ 0 0 1, link := v.link, loss := v.loss })

/-! ## Arrivals and stacks (R47, R108 to R116, R128) -/

/-- R47, R111 to R114, R128: an arrival inside the window retires the lane's oldest TO_STACK record ARRIVED, and
its piece goes to the stack or the shelf by the stacker's phase, or is unplaced and stops the lane. The drain closes
that the retirement may bring follow; that they come last is the model's choice (entry 13). -/
def Obligations.MatchedArrivalIsStackedOrShelved : Prop :=
  ∀ (s : State) (k : Lane) (t : Tag) (r : ItemRecord) (x : Pos),
    s.pins.rst = true → s.pins.es[k] = false → s.unit.esQual[k] = .clear → s.line.runs = true →
    s.enabled k = true → s.oldest k .toStack = some t → s.record t = some r → r.expected = some x →
    inWindow x s.map.params.tol s.position = true → NoneOverdue s k →
    let st := s.stackers[k]
    let piece : Piece := ⟨⟨r.group, r.article⟩, r.startsBatch, r.target, false⟩
    let s' := { s with
      pins := { s.pins with es := upd s.pins.es k true }
      unit := { s.unit with esQual := upd s.unit.esQual k .covered }
      track := ⟨upd s.track.slots t none, s.track.order.filter (fun y => decide (y ≠ t)),
        upd s.track.counters k { s.track.counters[k] with arrived := (s.track.counters[k]).arrived + 1 }⟩
      sched := { s.sched with entries := s.sched.entries.filter (fun e => decide (e.tag ≠ t)) } }
    let ends := fun u : State => exec (.cover (.es k)) s = .next (u.drainCloses)
    let stops := fun (u : State) (kind : FaultKind) (unplaced : Nat) =>
      let v := u.emit (.fault k kind s.position)
      { u with
        stackers := upd u.stackers k { u.stackers[k] with
          phase := .stopped, timer := none, pausePending := false, unplaced := unplaced }
        track := (s'.convertLane k).track, sched := (s'.convertLane k).sched, link := v.link, loss := v.loss }
    (st.phase = .collecting ∨ st.phase = .stopped → st.stack = none →
      ends (s'.setStacker k { st with stack := some ⟨piece.key, 1, 0,
        if st.override ≠ 0 then st.override else r.target, r.startsBatch⟩ }))
    ∧ (∀ o, st.phase = .collecting → st.stack = some o → r.startsBatch = false → o.key = piece.key →
        (o.pieces + 1 ≠ o.target → ends (s'.setStacker k { st with stack := some { o with pieces := o.pieces + 1 } }))
        ∧ (o.pieces + 1 = o.target →
          ends ((s'.setStacker k { st with stack := some { o with pieces := o.target } }).closeStack k .target .offered)))
    ∧ (∀ o, st.phase = .collecting → st.stack = some o → st.shelf = [] → (r.startsBatch = true ∨ o.key ≠ piece.key) →
        let closed := s'.closeStack k (if r.startsBatch then .separator else .batch) .offered
        (0 < s.shelfCap k → ends (closed.setStacker k { st with
          phase := .offered, stack := none, serial := st.serial + 1, unplaced := 0, shelf := [piece] }))
        ∧ (s.shelfCap k = 0 → ends (stops closed .shelfOverflow 1)))
    ∧ (st.phase = .offered ∨ st.phase = .lowering ∨ st.phase = .paused → st.shelf.length < s.shelfCap k →
        (∀ p ∈ st.shelf.head?, p.key = piece.key ∧ r.startsBatch = false) →
        ends (s'.setStacker k { st with shelf := st.shelf ++ [piece] }))
    ∧ (∀ o, st.phase = .stopped → st.stack = some o →
        (o.pieces < 65535 → ends (s'.setStacker k { st with stack := some { o with pieces := o.pieces + 1 } }))
        ∧ (65535 ≤ o.pieces → ends (s'.setStacker k { st with unplaced := min 65535 (st.unplaced + 1) })))
    ∧ (st.phase = .offered ∨ st.phase = .lowering ∨ st.phase = .paused →
        (s.shelfCap k ≤ st.shelf.length → ends (stops s' .shelfOverflow (min 65535 (st.unplaced + 1))))
        ∧ (∀ p rest, st.shelf.length < s.shelfCap k → st.shelf = p :: rest → p.key ≠ piece.key ∨ r.startsBatch = true →
          ends (stops s' .shelfMix (min 65535 (st.unplaced + 1)))))

/-- R47, R110 to R114, R128: an arrival that finds no TO_STACK record, or one whose window it is before, is a stray:
reported, and counted on the stack, put on the shelf or left unplaced; a stack that it opens in DRAIN with no live
record closes. That the STRAY note comes first is the model's choice (entry 13). -/
def Obligations.UnmatchedArrivalIsAStray : Prop :=
  ∀ (s : State) (k : Lane),
    s.pins.rst = true → s.pins.es[k] = false → s.unit.esQual[k] = .clear → s.line.runs = true →
    s.enabled k = true → NoneOverdue s k →
    (∀ t : Tag, ∀ r ∈ s.record t, r.lane = k → r.state = .toStack →
      ∀ x ∈ r.expected, inWindow x s.map.params.tol s.position = false) →
    let st := s.stackers[k]
    let s' := ((s.setPin (.es k) true).setQual (.es k) .covered).emit (.fault k .stray s.position)
    let ends := fun u : State => exec (.cover (.es k)) s = .next (u.drainCloses)
    (st.phase = .collecting ∨ st.phase = .stopped → st.stack = none →
      ends (s'.setStacker k { st with stack := some ⟨⟨0, 63⟩, 1, 1,
        if st.override ≠ 0 then st.override else 255, false⟩ }))
    ∧ (∀ o, st.stack = some o → (st.phase = .collecting ∧ o.pieces + 1 ≠ o.target) ∨ (st.phase = .stopped ∧ o.pieces < 65535) →
        ends (s'.setStacker k { st with stack := some { o with pieces := o.pieces + 1, strays := o.strays + 1 } }))
    ∧ (∀ o, st.stack = some o → st.phase = .collecting → o.pieces + 1 = o.target →
        ends ((s'.setStacker k { st with stack := some { o with
          pieces := o.target, strays := o.strays + 1 } }).closeStack k .target .offered))
    ∧ (∀ o, st.stack = some o → st.phase = .stopped → 65535 ≤ o.pieces →
        ends (s'.setStacker k { st with unplaced := min 65535 (st.unplaced + 1) }))
    ∧ (st.phase = .offered ∨ st.phase = .lowering ∨ st.phase = .paused →
        (st.shelf.length < s.shelfCap k → ends (s'.setStacker k { st with
          shelf := st.shelf ++ [⟨((st.shelf.head?).map (fun p => p.key)).getD ⟨0, 63⟩, false, 255, true⟩] }))
        ∧ (s.shelfCap k ≤ st.shelf.length →
          let v := s'.emit (.fault k .shelfOverflow s.position)
          ends { s' with
            stackers := upd s.stackers k { st with
              phase := .stopped, timer := none, pausePending := false, unplaced := min 65535 (st.unplaced + 1) }
            track := (s.convertLane k).track, sched := (s.convertLane k).sched, link := v.link, loss := v.loss }))

/-- R115, R131: a close reports the stack, credits its pieces and one stack to its key, advances the
serial and leaves the stack empty, whatever the cause. -/
def Obligations.CloseReportsCreditsAndAdvances : Prop :=
  ∀ (s : State) (k : Lane) (cause : CloseCause) (phase : Phase) (o : OpenStack),
    (s.stackers[k]).stack = some o →
    let st := s.stackers[k]
    let v := s.emit (.stackDone k st.serial o.key o.pieces o.strays o.target o.batchStart cause st.unplaced)
    s.closeStack k cause phase = { s with
      link := v.link, loss := v.loss, tally := s.tally.credit o.key o.pieces 1 0
      stackers := upd s.stackers k { st with phase := phase, stack := none, serial := st.serial + 1, unplaced := 0 } }

/-- R115, R128, R131: in DRAIN with no live record, every stacker in COLLECTING with an open stack closes it with cause
DRAIN, reported and credited (in lane order: the model's choice, entry 24); otherwise none does. -/
def Obligations.DrainClosesEveryCollectingStack : Prop :=
  ∀ s : State,
    (s.line = .drain → (∀ t : Tag, s.record t = none) →
      (∀ k : Lane, (s.drainCloses).stackers[k] =
        (if (s.stackers[k]).phase = .collecting ∧ (s.stackers[k]).stack.isSome then
          { s.stackers[k] with phase := .offered, stack := none, serial := (s.stackers[k]).serial + 1, unplaced := 0 }
        else s.stackers[k]))
      ∧ (s.drainCloses).tally = drainTally s
      ∧ (s.drainCloses).link = ((drainNotes s).foldl State.emit s).link
      ∧ (s.drainCloses).loss = ((drainNotes s).foldl State.emit s).loss)
    ∧ (s.line ≠ .drain ∨ (∃ t : Tag, s.record t ≠ none) → s.drainCloses = s)
    ∧ s.drainCloses = { s with
        stackers := (s.drainCloses).stackers, tally := (s.drainCloses).tally
        link := (s.drainCloses).link, loss := (s.drainCloses).loss }

/-- R130, R133, R134: a credit goes to its key's row, to a new row, or with 128 rows to the overflow
row; each counter holds at 16,777,215 and the flag tells a loss. -/
def Obligations.CreditGoesToOneRow : Prop :=
  ∀ (t : Tally) (key : Key) (p n r : Nat), t.live.Pairwise (fun x y => x.1.rank < y.1.rank) →
    let u := t.credit key p n r
    let add := fun a b : Nat => min 16777215 (a + b)
    let added := fun row : TallyRow => (⟨add row.pieces p, add row.stackCount n, add row.rejects r,
      row.saturated || decide (16777215 < row.pieces + p) || decide (16777215 < row.stackCount + n)
        || decide (16777215 < row.rejects + r)⟩ : TallyRow)
    u = { t with live := u.live, overflow := u.overflow }
    ∧ (∀ k row, k ≠ key → ((k, row) ∈ u.live ↔ (k, row) ∈ t.live))
    ∧ (∀ row, (key, row) ∈ t.live → (key, added row) ∈ u.live ∧ u.overflow = t.overflow ∧ u.live.length = t.live.length)
    ∧ ((∀ row, (key, row) ∉ t.live) → t.live.length < 128 →
        (key, added ⟨0, 0, 0, false⟩) ∈ u.live ∧ u.overflow = t.overflow ∧ u.live.length = t.live.length + 1)
    ∧ ((∀ row, (key, row) ∉ t.live) → 128 ≤ t.live.length → u.live = t.live ∧ u.overflow = added t.overflow)

/-! ## The discharge handshake (R116 to R120) -/

/-- R116, R117, R118, R167: SACK at OFFERED, SCLR at LOWERING, the warnings, and the edges discarded; SRDY is asserted
in OFFERED and released in every other phase, in every state. -/
def Obligations.HandshakeMovesTheStacker : Prop :=
  ∀ (s : State) (k : Lane), s.pins.rst = true →
    let st := s.stackers[k]
    let taken := s.line.runs = true ∧ s.enabled k = true
    let own := (s.map.diverters[k]).timeout
    (∀ u : State, u.srdyLevel k = true ↔ (u.stackers[k]).phase = .offered)
    ∧ (taken → st.phase = .offered → exec (.sackRise k) s = .next (s.setStacker k { st with
      phase := .lowering, timer := some (64 * (if own = 0 then s.map.params.timeout else own)) }))
    ∧ (taken → st.phase ≠ .offered → exec (.sackRise k) s = .next (s.emit (.fault k .handshake s.position)))
    ∧ (taken → st.phase = .lowering → st.pausePending = true → exec (.sclrRise k) s =
        .next ((s.setStacker k { st with phase := .paused, pausePending := false, timer := none }).drainCloses))
    ∧ (taken → st.phase = .lowering → st.pausePending = false → st.stack = none → st.shelf = [] →
        exec (.sclrRise k) s = .next ((s.setStacker k { st with phase := .collecting, timer := none }).drainCloses))
    ∧ (∀ p rest, taken → st.phase = .lowering → st.pausePending = false → st.shelf = p :: rest →
        exec (.sclrRise k) s = .next ((s.setStacker k { st with
          phase := .collecting, timer := none, shelf := []
          stack := some ⟨p.key, rest.length + 1, (p :: rest).countP (fun x => x.stray),
            if st.override ≠ 0 then st.override else p.target, p.startsBatch⟩ }).drainCloses))
    ∧ (taken → st.phase ≠ .lowering → exec (.sclrRise k) s = .next (s.emit (.fault k .handshake s.position)))
    ∧ (¬taken → exec (.sackRise k) s = .next s ∧ exec (.sclrRise k) s = .next s)

/-- R7, R119, R120, R166: a discharge whose last tick has been counted stops the lane; with ticks to go, or at a
stacker not in LOWERING, no timeout occurs (when the sender may put the event is the model's choice, entry 5). -/
def Obligations.DischargeTimeoutStopsTheLane : Prop :=
  ∀ (s : State) (k : Lane), s.pins.rst = true →
    ((s.stackers[k]).phase = .lowering → (s.stackers[k]).timer = some 0 → NoneOverdue s k →
      let v := s.emit (.fault k .dischargeTimeout s.position)
      exec (.dischargeTimeout k) s = .next { s with
        stackers := upd s.stackers k { s.stackers[k] with phase := .stopped, timer := none, pausePending := false }
        track := (s.convertLane k).track, sched := (s.convertLane k).sched, link := v.link, loss := v.loss })
    ∧ ((s.stackers[k]).phase ≠ .lowering ∨ (s.stackers[k]).timer ≠ some 0 → exec (.dischargeTimeout k) s = .next s)

/-! ## The line (R158 to R165) -/

/-- R34, R160 to R162: when its three terms hold a drain ends, with the DRAINED notes in lane order
before the STATE_NOTE; otherwise nothing happens. -/
def Obligations.DrainEndsWhenItsTermsHold : Prop :=
  ∀ s : State, s.pins.rst = true →
    let terms := (∀ t : Tag, s.record t = none) ∧ ∀ k : Lane,
      (s.stackers[k]).phase ≠ .offered ∧ (s.stackers[k]).phase ≠ .lowering
        ∧ ((s.stackers[k]).phase = .collecting → (s.stackers[k]).stack = none)
    let notes := ([0, 1, 2, 3] : List Lane).flatMap (fun k => (s.queues[k]).map (fun e => match e with
      | .announce a c stamp => Note.lost (byteOf k) .drained .announce (some (byteOf a)) (some c) stamp s.position
      | .separator stamp => Note.lost (byteOf k) .drained .separator none none stamp s.position))
    (s.line = .drain → terms → exec .drainCompletion s =
      .next { (notes ++ [Note.state .drain .ready .drainEnd s.position]).foldl State.emit s with
        line := .ready, queues := Vector.replicate 4 [] })
    ∧ (s.line ≠ .drain ∨ ¬terms → exec .drainCompletion s = .next s)

/-- R106, R158 to R160: a LINE_MODE addressed to the part that makes a row of R158; the answer comes
before the STATE_NOTE. Entering DRAIN takes the drain closes before the answer, and a drain that is then complete ends
within the same step as DRAIN_COMPLETION does (R128, R161; that this is the order of the notes is the model's choice,
entry 17); with a record live neither happens, and with every stacker idle and the queues empty it ends at once. -/
def Obligations.LineModeMovesTheLine : Prop :=
  ∀ (s : State) (src : Byte), s.pins.rst = true → s.addressable src = true →
    let ok := plainAnswer s src 0x40 0
    (s.line = .service → exec (.lineModeReady src false) s =
      .next (((s.setLine .ready).releaseOutputs.report [ok]).emit (.state .service .ready .mode s.position)))
    ∧ (s.line = .ready ∨ s.line = .drain → exec (.lineModeRun src false) s =
        .next (((s.setLine .run).report [ok]).emit (.state s.line .run .mode s.position)))
    ∧ (s.line = .run → exec (.lineModeDrain src false) s = exec .drainCompletion
        ((((s.setLine .drain).drainCloses).report [ok]).emit (.state .run .drain .mode s.position)))
    ∧ (s.line = .run → (∃ t : Tag, s.record t ≠ none) → exec (.lineModeDrain src false) s =
        .next (((s.setLine .drain).report [ok]).emit (.state .run .drain .mode s.position)))
    ∧ (s.line = .ready → exec (.lineModeService src false) s =
        .next (((s.setLine .service).report [ok]).emit (.state .ready .service .mode s.position)))
    ∧ (s.line = .run → (∀ t : Tag, s.record t = none) →
        (∀ k : Lane, s.queues[k] = [] ∧ (s.stackers[k]).phase ≠ .offered ∧ (s.stackers[k]).phase ≠ .lowering
          ∧ ((s.stackers[k]).phase = .collecting → (s.stackers[k]).stack = none)) →
        exec (.lineModeDrain src false) s = .next ((((s.report [ok]).emit
          (.state .run .drain .mode s.position)).emit (.state .drain .ready .drainEnd s.position)).setLine .ready))

/-- R35, R57, R92, R107, R129, R131, R142, R164: what a LINE_RESET addressed to the part leaves, in every state: every
block but the link as `ResetFrom` says, and the STACK_DONE notes, the answer and the STATE_NOTE in that order; one
with a payload is refused. -/
def Obligations.LineResetClearsTheLine : Prop :=
  ∀ (s : State) (src : Byte), s.pins.rst = true → s.addressable src = true →
    (∃ u, exec (.lineReset src false []) s = .next u
      ∧ ResetFrom s u ∧ u.freeIndex = s.freeIndex
      ∧ (let v := ((resetNotes s).foldl State.emit s).report [plainAnswer s src 0x41 0]
        let w := if s.line = resetLine s then v else v.emit (.state s.line (resetLine s) .lineReset s.position)
        u.link = w.link ∧ u.loss = w.loss))
    ∧ ∀ p : List Byte, p ≠ [] → exec (.lineReset src false p) s = .next (s.report [plainAnswer s src 0x41 4])

/-- R8, R165, R178: while RST is low the part takes no event and the sensor inputs alone move (entry 7);
COLD_RESET starts every block from its cold-reset values, samples the straps and the sensor inputs and
makes no note; RST_FALLS cuts the telegrams on RXD and TXD and nothing else. That the other blocks keep their state at
the fall, that COLD_RESET is taken at any level of RST (entry 8), and that the telegram in transmission leaves its
buffer (entry 30) are the model's choices. -/
def Obligations.ResetPinAndColdReset : Prop :=
  ∀ s : State,
    (s.pins.rst = false → (∀ x, exec (.cover x) s = .next (s.setPin x true))
      ∧ (∀ x, exec (.uncover x) s = .next (s.setPin x false))
      ∧ ∀ c, (∀ x, c ≠ .cover x) → (∀ x, c ≠ .uncover x) → (∀ na, c ≠ .coldReset na) → exec c s = .next s)
    ∧ (∀ na : BitVec 5, exec (.coldReset na) s = .next { State.reset with
      pending := s.pending, freeIndex := s.freeIndex, node := na
      pins := ⟨s.pins.ls, s.pins.es, true⟩
      unit := ⟨1, 0, 0, 16, tabulate fun k => if s.pins.ls[k] then .covered else .clear,
        tabulate fun k => if s.pins.es[k] then .covered else .clear⟩ })
    ∧ (s.pins.rst = true → exec .rstFalls s = .next { s with
        pins := { s.pins with rst := false }
        link := ⟨.hunt false,
          if s.link.transmitter = .forwarding then s.link.forward.tail else s.link.forward,
          if s.link.transmitter = .reporting then s.link.reports.tail else s.link.reports,
          .idle, s.link.errors⟩ })

/-! ## The link (R170 to R174) -/

/-- R171, table: one byte at a receiver that holds no complete telegram. -/
def Obligations.ReceiverTakesOneByte : Prop :=
  ∀ (s : State) (b : Byte) (ok : Bool), s.pins.rst = true →
    let into := fun r : Receiver => { s with link := { s.link with receiver := r } }
    let abandoned := { s with link := { s.link with
      receiver := .hunt false, errors := if s.link.errors < 255 then s.link.errors + 1 else 255 } }
    (∀ c, s.link.receiver = .hunt c → exec (.rxdByte b ok) s = .next (into (
      if ok = false then .hunt false
      else if c = true ∧ b = 0x2C then .body [0xD3, 0x2C]
      else if b = 0xD3 then .hunt true else .hunt false)))
    ∧ (∀ bytes, s.link.receiver = .body bytes → completed bytes = none → exec (.rxdByte b ok) s = .next (
        if ok = false then abandoned
        else if bytes.length = 5 ∧ 40 < b.toNat then abandoned
        else into (.body (bytes ++ [b]))))

/-- R170, R171: the bytes of a telegram, laid out by the frame and taken one by one from HUNT, are
received whole: the receiver then holds exactly that telegram and its check word, which agrees. That the complete
telegram stays in the receiver until TELEGRAM_RECEIVED is the model's choice (entry 11). -/
def Obligations.EveryTelegramIsReceivedAsSent : Prop :=
  ∀ (t : Telegram) (s : State) (c : Bool) (rest : List Instr), t.payload.length ≤ 40 →
    s.pins.rst = true → s.link.receiver = .hunt c →
    s.pending = ([0xD3, 0x2C, t.dest, t.src, t.kind, byteOf t.payload.length] ++ t.payload
      ++ bytes16 (([t.dest, t.src, t.kind, byteOf t.payload.length] ++ t.payload).foldl (fun n b => n + b.toNat) 0 % 65536)).map
        (fun b => Instr.rxdByte b true) ++ rest →
    ∃ bytes, Sys2Proof.core.run (t.payload.length + 8) s =
        .next { s with pending := rest, link := { s.link with receiver := .body bytes } }
      ∧ completed bytes = some (t, bytes16 (checkSum t.body))

/-- R172, R174, R175: a good telegram addressed to the part is handed to the block its kind names: it
does what its command row does. -/
def Obligations.GoodTelegramActsAsItsCommand : Prop :=
  ∀ (s : State) (t : Telegram), s.pins.rst = true → s.link.receiver = .body t.bytes →
    t.payload.length ≤ 40 → s.node ≠ 31 → t.dest.toNat = s.node.toNat → t.src.toNat ≠ s.node.toNat →
    let s' := { s with link := { s.link with receiver := .hunt false } }
    let does := fun c => exec .telegramReceived s = exec c s'
    (t.kind = 0x10 → does (.announce t.src t.payload)) ∧ (t.kind = 0x11 → does (.separator t.src t.payload))
    ∧ (t.kind = 0x20 → does (.setupGlobals t.src t.payload)) ∧ (t.kind = 0x21 → does (.setupStation t.src t.payload))
    ∧ (t.kind = 0x22 → does (.setupOutput t.src t.payload)) ∧ (t.kind = 0x23 → does (.setupDiverter t.src t.payload))
    ∧ (t.kind = 0x24 → does (.commitMap t.src t.payload)) ∧ (t.kind = 0x30 → does (.loadArticle t.src t.payload))
    ∧ (t.kind = 0x31 → does (.loadPlan t.src t.payload)) ∧ (t.kind = 0x32 → does (.loadCustomer t.src t.payload))
    ∧ (t.kind = 0x33 → does (.loadLanes t.src t.payload)) ∧ (t.kind = 0x34 → does (.lockEntry t.src t.payload))
    ∧ (t.kind = 0x40 → (t.payload = [1] → does (.lineModeReady t.src false))
        ∧ (t.payload = [2] → does (.lineModeRun t.src false)) ∧ (t.payload = [3] → does (.lineModeDrain t.src false))
        ∧ (t.payload = [4] → does (.lineModeService t.src false))
        ∧ (t.payload ∉ ([[1], [2], [3], [4]] : List (List Byte)) →
            exec .telegramReceived s = .next (s'.report [plainAnswer s t.src 0x40 4])))
    ∧ (t.kind = 0x41 → does (.lineReset t.src false t.payload))
    ∧ (t.kind = 0x42 → (∀ l v, (t.payload = [l, 0, v] → does (.stackCmdClose t.src l v))
        ∧ (t.payload = [l, 1, v] → does (.stackCmdStop t.src l v))
        ∧ (t.payload = [l, 2, v] → does (.stackCmdStopAfter t.src l v))
        ∧ (t.payload = [l, 3, v] → does (.stackCmdResume t.src l v))
        ∧ (t.payload = [l, 4, v] → does (.stackCmdTarget t.src l v)))
        ∧ ((t.payload.length ≠ 3 ∨ ∃ l op v, t.payload = [l, op, v] ∧ 4 < op.toNat) →
            exec .telegramReceived s = .next (s'.report [plainAnswer s t.src 0x42 4])))
    ∧ (t.kind = 0x43 → does (.clearLane t.src t.payload))
    ∧ (t.kind = 0x44 → (∀ o, (t.payload = [o, 0] → does (.forceOutputSet t.src o))
        ∧ (t.payload = [o, 1] → does (.forceOutputClear t.src o)) ∧ (t.payload = [o, 2] → does (.forceOutputShot t.src o)))
        ∧ ((t.payload.length ≠ 2 ∨ ∃ o op, t.payload = [o, op] ∧ 2 < op.toNat) →
            exec .telegramReceived s = .next (s'.report [plainAnswer s t.src 0x44 4])))
    ∧ (t.kind = 0x50 → does (.tallyFreeze t.src t.payload)) ∧ (t.kind = 0x51 → does (.tallyRead t.src t.payload))
    ∧ (t.kind = 0x52 → does (.statusRead t.src t.payload)) ∧ (t.kind = 0x53 → does (.itemRead t.src t.payload))
    ∧ (t.kind ∉ ([0x10, 0x11, 0x20, 0x21, 0x22, 0x23, 0x24, 0x30, 0x31, 0x32, 0x33, 0x34, 0x40, 0x41, 0x42, 0x43, 0x44,
          0x50, 0x51, 0x52, 0x53] : List Byte) → does (.unknownKind t.src t.kind))

/-- R159, R164, R171, R172, R174: the other ends of a complete telegram: abandoned for its check word, removed,
forwarded, dropped at a full buffer, or, as a broadcast, taken by the row of its kind and payload; a malformed broadcast
is forwarded and does nothing else. A receiver without a complete telegram has no event (the model's choice, entry 11).
An unknown kind is answered INVALID (R174), whatever the receiver's state. -/
def Obligations.OtherTelegramsAreRemovedOrForwarded : Prop :=
  ∀ s : State, s.pins.rst = true →
    (∀ src kind : Byte, s.addressable src = true →
      kind ∉ ([0x10, 0x11, 0x20, 0x21, 0x22, 0x23, 0x24, 0x30, 0x31, 0x32, 0x33, 0x34, 0x40, 0x41, 0x42, 0x43, 0x44,
        0x50, 0x51, 0x52, 0x53] : List Byte) →
      exec (.unknownKind src kind) s = .next (s.report [plainAnswer s src kind 4]))
    ∧ (∀ c, s.link.receiver = .hunt c → exec .telegramReceived s = .next s)
    ∧ ∀ (t : Telegram) (check bytes : List Byte), s.link.receiver = .body bytes →
    let s' := { s with link := { s.link with receiver := .hunt false } }
    let good := completed bytes = some (t, check) ∧ check = bytes16 (checkSum t.body)
    let own := s.node ≠ 31 ∧ t.src.toNat = s.node.toNat
    let mine := s.node ≠ 31 ∧ t.dest.toNat = s.node.toNat
    let all := t.dest = 31 ∧ (t.kind = 0x40 ∨ t.kind = 0x41)
    let drawn := { s' with freeIndex := s.freeIndex + 1 }
    (completed bytes = none → exec .telegramReceived s = .next s)
    ∧ (completed bytes = some (t, check) → check ≠ bytes16 (checkSum t.body) → exec .telegramReceived s =
        .next { s' with link := { s'.link with errors := min 255 (s.link.errors + 1) } })
    ∧ (good → own → exec .telegramReceived s = .next s')
    ∧ (good → ¬own → ¬mine → ¬all → s.link.forward.length < 2 → exec .telegramReceived s =
        .next { s' with link := { s'.link with
          forward := s.link.forward ++ [t]
          transmitter := if s.link.transmitter = .idle then .forwarding else s.link.transmitter } })
    ∧ (good → ¬own → ¬mine → ¬all → 2 ≤ s.link.forward.length → exec .telegramReceived s =
        .next { s' with link := { s'.link with errors := min 255 (s.link.errors + 1) } })
    ∧ (good → ¬own → ¬mine → t.dest = 31 → t.kind = 0x41 →
        exec .telegramReceived s = exec (.lineReset t.src true t.payload) s'
        ∧ (t.payload ≠ [] → exec .telegramReceived s = .next (drawn.forward t)))
    ∧ (good → ¬own → ¬mine → t.dest = 31 → t.kind = 0x40 →
        (t.payload = [1] → exec .telegramReceived s = exec (.lineModeReady t.src true) s')
        ∧ (t.payload = [2] → exec .telegramReceived s = exec (.lineModeRun t.src true) s')
        ∧ (t.payload = [3] → exec .telegramReceived s = exec (.lineModeDrain t.src true) s')
        ∧ (t.payload = [4] → exec .telegramReceived s = exec (.lineModeService t.src true) s')
        ∧ (t.payload ∉ ([[1], [2], [3], [4]] : List (List Byte)) →
            exec .telegramReceived s = .next (drawn.forward t)))

/-- R158, R159, R164, R172: a broadcast is acted on without an answer and forwarded, in one of the two orders (entry 10);
one that makes no row of R158 is forwarded alone; one of the part's own is removed. `acts` says both orders, for a
broadcast that changes the state by `f`. -/
def Obligations.BroadcastIsActedOnAndForwarded : Prop :=
  ∀ (s : State) (src : Byte), s.pins.rst = true →
    let next := { s with freeIndex := s.freeIndex + 1 }
    let mode := fun target : Byte => (⟨31, src, 0x40, [target]⟩ : Telegram)
    let reset : Telegram := ⟨31, src, 0x41, []⟩
    let acts := fun (c : Instr) (t : Telegram) (f : State → State) =>
      exec c s = .next (f (next.forward t)) ∨ exec c s = .next ((f next).forward t)
    let noted := fun v : State =>
      let w := (resetNotes s).foldl State.emit v
      if s.line = resetLine s then w else w.emit (.state s.line (resetLine s) .lineReset s.position)
    (s.node ≠ 31 → src.toNat = s.node.toNat →
      exec (.lineModeReady src true) s = .next s ∧ exec (.lineModeRun src true) s = .next s
      ∧ exec (.lineModeDrain src true) s = .next s ∧ exec (.lineModeService src true) s = .next s
      ∧ exec (.lineReset src true []) s = .next s)
    ∧ (s.node = 31 ∨ src.toNat ≠ s.node.toNat →
      (s.line ≠ .service → exec (.lineModeReady src true) s = .next (next.forward (mode 1)))
      ∧ (s.line = .service → acts (.lineModeReady src true) (mode 1) (fun v =>
          ((v.setLine .ready).releaseOutputs).emit (.state .service .ready .mode s.position)))
      ∧ (s.line ≠ .ready → s.line ≠ .drain → exec (.lineModeRun src true) s = .next (next.forward (mode 2)))
      ∧ (s.line = .ready ∨ s.line = .drain → acts (.lineModeRun src true) (mode 2) (fun v =>
          (v.setLine .run).emit (.state s.line .run .mode s.position)))
      ∧ (s.line ≠ .run → exec (.lineModeDrain src true) s = .next (next.forward (mode 3)))
      ∧ (s.line = .run →
          let drained := fun v : State =>
            exec .drainCompletion (((v.setLine .drain).drainCloses).emit (.state .run .drain .mode s.position))
          exec (.lineModeDrain src true) s = drained (next.forward (mode 3))
          ∨ ∃ v, drained next = .next v ∧ exec (.lineModeDrain src true) s = .next (v.forward (mode 3)))
      ∧ (s.line = .run → (∃ t : Tag, s.record t ≠ none) → acts (.lineModeDrain src true) (mode 3) (fun v =>
          (v.setLine .drain).emit (.state .run .drain .mode s.position)))
      ∧ (s.line ≠ .ready → exec (.lineModeService src true) s = .next (next.forward (mode 4)))
      ∧ (s.line = .ready → acts (.lineModeService src true) (mode 4) (fun v =>
          (v.setLine .service).emit (.state .ready .service .mode s.position)))
      ∧ (∀ p : List Byte, p ≠ [] → exec (.lineReset src true p) s = .next (next.forward ⟨31, src, 0x41, p⟩))
      ∧ ∃ u, exec (.lineReset src true []) s = .next u ∧ ResetFrom s u ∧ u.freeIndex = s.freeIndex + 1
        ∧ ((u.link = (noted (next.forward reset)).link ∧ u.loss = (noted (next.forward reset)).loss)
          ∨ (u.link = ((noted next).forward reset).link ∧ u.loss = ((noted next).forward reset).loss)))

/-- R168, R173: telegrams enter the Report Queue together or are all lost with the flag set; a note of a
part strapped to 31 is discarded; notes carry the report node; the end of a telegram on TXD frees its
place and starts the next, forwarded ones first. That TELEGRAM_SENT at an idle transmitter changes nothing is the
model's choice (entry 30). -/
def Obligations.OutboundLineQueuesAndSends : Prop :=
  ∀ s : State,
    let next := fun (f r : List Telegram) => { s with link := { s.link with
      forward := f, reports := r
      transmitter := if f ≠ [] then .forwarding else if r ≠ [] then .reporting else .idle } }
    (∀ t f, s.pins.rst = true → s.link.transmitter = .forwarding → s.link.forward = t :: f →
      exec .telegramSent s = .next (next f s.link.reports))
    ∧ (∀ t r, s.pins.rst = true → s.link.transmitter = .reporting → s.link.reports = t :: r →
        exec .telegramSent s = .next (next s.link.forward r))
    ∧ (s.pins.rst = true → s.link.transmitter = .idle → exec .telegramSent s = .next s)
    ∧ ∀ (ts : List Telegram) (n : Note),
    (s.link.reports.length + ts.length ≤ 16 → ts ≠ [] → s.report ts = { s with link := { s.link with
      reports := s.link.reports ++ ts
      transmitter := if s.link.transmitter ≠ .idle then s.link.transmitter
        else if s.link.forward ≠ [] then .forwarding else .reporting } })
    ∧ (16 < s.link.reports.length + ts.length → s.report ts = { s with loss := true })
    ∧ (s.node = 31 → s.emit n = s)
    ∧ (s.node ≠ 31 → s.emit n = s.report [⟨match s.setup.committed with
        | some m => m.params.reportNode
        | none => 0, s.nodeByte, n.kind, n.payload⟩])

/-! ## Announcements (R18, R19, R20) -/

/-- R18, R19: an ANNOUNCE or SEPARATOR that passes every check joins the tail of its lane's queue with the
present position as its stamp; nothing else changes. -/
def Obligations.AnnouncementJoinsItsQueue : Prop :=
  ∀ (s : State) (src hi lo : Byte) (k : Lane) (a : Article), s.pins.rst = true → s.addressable src = true →
    (s.line = .run ∨ s.line = .drain) → s.enabled k = true → (s.queues[k]).length < 8 →
    exec (.announce src [byteOf k, byteOf a, hi, lo]) s =
        .next { s with queues := upd s.queues k (s.queues[k] ++ [.announce a (hi ++ lo) s.position]) }
    ∧ exec (.separator src [byteOf k]) s =
        .next { s with queues := upd s.queues k (s.queues[k] ++ [.separator s.position]) }

/-- R19, R20: an announcement is refused at the first check it fails, with one note, and changes no queue. That the note
of an ANNOUNCE of a wrong length carries the article and the customer id as far as the telegram carried each is the
model's choice (entry 18). -/
def Obligations.AnnouncementIsRefusedInOrder : Prop :=
  ∀ (s : State) (src : Byte) (l a hi lo : Byte), s.pins.rst = true → s.addressable src = true →
    let lost := fun cause => (Host.Outcome.next (s.emit (.lost l cause .announce (some a) (some (hi ++ lo))
      s.position s.position)) : Result)
    let lostS := fun cause => (Host.Outcome.next (s.emit (.lost l cause .separator none none
      s.position s.position)) : Result)
    (∀ p : List Byte, p.length ≠ 4 → exec (.announce src p) s = .next (s.emit (.lost (p.head?.getD 255) .malformed
      .announce p[1]? (match p[2]?, p[3]? with
        | some hi, some lo => some (hi ++ lo)
        | _, _ => none) s.position s.position)))
    ∧ (∀ p : List Byte, p.length ≠ 1 → exec (.separator src p) s = .next (s.emit (.lost (p.head?.getD 255) .malformed
        .separator none none s.position s.position)))
    ∧ (3 < l.toNat ∨ 63 < a.toNat → exec (.announce src [l, a, hi, lo]) s = lost .malformed)
    ∧ (3 < l.toNat → exec (.separator src [l]) s = lostS .malformed)
    ∧ (∀ k : Lane, l = byteOf k → a.toNat ≤ 63 →
        (s.line.runs = false → exec (.announce src [l, a, hi, lo]) s = lost .notRunning
          ∧ exec (.separator src [l]) s = lostS .notRunning)
        ∧ (s.line.runs = true → s.enabled k = false → exec (.announce src [l, a, hi, lo]) s = lost .laneOff
          ∧ exec (.separator src [l]) s = lostS .laneOff)
        ∧ (s.line.runs = true → s.enabled k = true → 8 ≤ (s.queues[k]).length →
          exec (.announce src [l, a, hi, lo]) s = lost .queueFull ∧ exec (.separator src [l]) s = lostS .queueFull))

/-! ## The Setup Store (chapter 9) -/

/-- R143 to R147: in INIT a staging load writes its part of the staging copy and nothing else, and one with a field out
of range is refused INVALID and writes nothing; a PULSE shot of 0 is held as 1 and answered CLAMPED. That a LATCH
output is staged whatever shot it is given, as 0, is the model's choice (entry 32). -/
def Obligations.StagingLoadsWriteTheStagingCopy : Prop :=
  ∀ (s : State) (src : Byte), s.pins.rst = true → s.addressable src = true → s.line = .init →
    let m := s.setup.staging
    let did := fun (m' : StationMap) (kind code : Byte) =>
      (Host.Outcome.next ((s.setSetup { s.setup with staging := m' }).report [plainAnswer s src kind code]) : Result)
    let invalid := fun kind : Byte => (Host.Outcome.next (s.report [plainAnswer s src kind 4]) : Result)
    let word := fun h l : Byte => h.toNat * 256 + l.toNat
    let badOut := fun b : Byte => 15 < b.toNat ∧ b ≠ 255
    (∀ p q mg arm a sd tol node timeout : Nat, p ∈ [1, 2, 4, 8] → 4 ≤ q → q ≤ 255 → 1 ≤ mg → mg ≤ 63 → 8 ≤ arm → arm ≤ 1023 →
      256 ≤ a → a ≤ 65535 → 1 ≤ sd → sd ≤ 65535 → 4 ≤ tol → tol ≤ 255 → node ≤ 30 → 1 ≤ timeout → timeout ≤ 255 →
      exec (.setupGlobals src ([byteOf p, byteOf q, byteOf mg] ++ bytes16 arm ++ bytes16 a ++ bytes16 sd
        ++ [byteOf tol, byteOf node, byteOf timeout])) s =
        did { m with globals := some ⟨p, q, mg, arm, a, sd, tol, byteOf node, timeout⟩ } 0x20 0)
    ∧ (∀ p q mg arm1 arm0 a1 a0 sd1 sd0 tol node timeout : Byte,
        p ∉ ([1, 2, 4, 8] : List Byte) ∨ q.toNat < 4 ∨ mg = 0 ∨ 63 < mg.toNat ∨ word arm1 arm0 < 8 ∨ 1023 < word arm1 arm0
          ∨ word a1 a0 < 256 ∨ word sd1 sd0 = 0 ∨ tol.toNat < 4 ∨ 30 < node.toNat ∨ timeout = 0 →
        exec (.setupGlobals src [p, q, mg, arm1, arm0, a1, a0, sd1, sd0, tol, node, timeout]) s = invalid 0x20)
    ∧ (∀ (i : StationId) (dist busy : Nat) (o : OutId) (l : Vector (Option OutId) 4) (x y z : Byte),
        1 ≤ dist → dist ≤ 65535 → 1 ≤ busy → busy ≤ 4095 →
        let out := fun w : Option OutId => match w with
          | some o => byteOf o
          | none => 255
        exec (.setupStation src ([byteOf i, 1] ++ bytes16 dist ++ bytes16 busy ++ [out l[0], out l[1], out l[2], out l[3]])) s =
            did { m with stations := upd m.stations i (.lane dist busy l) } 0x21 0
        ∧ exec (.setupStation src ([byteOf i, 2] ++ bytes16 dist ++ bytes16 busy ++ [byteOf o, x, y, z])) s =
            did { m with stations := upd m.stations i (.shared dist busy o) } 0x21 0)
    ∧ (∀ (i : StationId) (kind d1 d0 b1 b0 w x y z : Byte),
        let load := exec (.setupStation src [byteOf i, kind, d1, d0, b1, b0, w, x, y, z]) s
        (kind = 0 → load = did { m with stations := upd m.stations i .absent } 0x21 0)
        ∧ (2 < kind.toNat → load = invalid 0x21)
        ∧ (kind = 1 ∨ kind = 2 → word d1 d0 = 0 ∨ word b1 b0 = 0 ∨ 4095 < word b1 b0 → load = invalid 0x21)
        ∧ (kind = 1 → badOut w ∨ badOut x ∨ badOut y ∨ badOut z → load = invalid 0x21)
        ∧ (kind = 2 → 15 < w.toNat → load = invalid 0x21))
    ∧ (∀ (o : OutId) (shot : Nat), 1 ≤ shot → shot ≤ 1023 →
        exec (.setupOutput src ([byteOf o, 0] ++ bytes16 shot)) s =
            did { m with outputs := upd m.outputs o (some ⟨.pulse, shot⟩) } 0x22 0
        ∧ exec (.setupOutput src [byteOf o, 0, 0, 0]) s =
            did { m with outputs := upd m.outputs o (some ⟨.pulse, 1⟩) } 0x22 1)
    ∧ (∀ (o : OutId) (mode s1 s0 : Byte),
        let load := exec (.setupOutput src [byteOf o, mode, s1, s0]) s
        (mode = 1 → load = did { m with outputs := upd m.outputs o (some ⟨.latch, 0⟩) } 0x22 0)
        ∧ (mode = 0 → 1023 < word s1 s0 → load = invalid 0x22) ∧ (1 < mode.toNat → load = invalid 0x22))
    ∧ (∀ (k : Lane) (o : OutId) (dist openLead closeTrail cap timeout : Nat), 1 ≤ dist → dist ≤ 65535 → openLead ≤ 255 →
        closeTrail ≤ 255 → cap ≤ 3 → timeout ≤ 255 →
        let rest := bytes16 dist ++ [byteOf openLead, byteOf closeTrail, byteOf cap, byteOf timeout]
        exec (.setupDiverter src ([byteOf k, byteOf o] ++ rest)) s =
            did { m with diverters := upd m.diverters k ⟨some o, dist, openLead, closeTrail, cap, timeout⟩ } 0x23 0
        ∧ exec (.setupDiverter src ([byteOf k, 255] ++ rest)) s =
            did { m with diverters := upd m.diverters k ⟨none, dist, openLead, closeTrail, cap, timeout⟩ } 0x23 0)
    ∧ (∀ (k : Lane) (o d1 d0 openLead closeTrail cap timeout : Byte), badOut o ∨ word d1 d0 = 0 ∨ 3 < cap.toNat →
        exec (.setupDiverter src [byteOf k, o, d1, d0, openLead, closeTrail, cap, timeout]) s = invalid 0x23)

/-- R148: what the seven checks together ask of the staging copy, and which check a refusal names: `fails c i` is
check `c` failing at item `i`, as R177 numbers it, and the first of them by check and then by item is the one named. -/
def Obligations.CommitChecksAskWhatR148Asks : Prop :=
  ∀ m : StationMap,
    (m.fault = none ↔
      ∃ g, m.globals = some g
        ∧ (∀ o : OutId, (m.stationOuts ++ m.diverterOuts).count o ≤ 1)
        ∧ (∀ o ∈ m.stationOuts, ∃ c, m.outputs[o] = some c ∧ c.mode = .pulse)
        ∧ (∀ o ∈ m.diverterOuts, ∃ c, m.outputs[o] = some c ∧ c.mode = .latch)
        ∧ (m.diverters[(0 : Lane)]).output ≠ none
        ∧ (∀ (i : StationId) (dist busy : Nat) (outs : Vector (Option OutId) 4),
            m.stations[i] = .lane dist busy outs → outs[(0 : Lane)] ≠ none)
        ∧ (∀ k : Lane, (m.diverters[k]).output ≠ none →
            ((4095 + g.confirmSpan + g.arm : Nat) : Int) ≤ (m.diverters[k]).dist - (m.diverters[k]).openLead
            ∧ (∀ i : StationId, m.stations[i] ≠ .absent → (m.stations[i]).distance < (m.diverters[k]).dist)
            ∧ (m.diverters[k]).dist < g.stackDist))
    ∧ (let staged := fun (o : OutId) (mode : OutMode) => ∃ c, m.outputs[o] = some c ∧ c.mode = mode
      let lane := fun (i : Nat) (bad : Diverter → Globals → Prop) => ∃ k : Lane, i = k.1
        ∧ (m.diverters[k]).output ≠ none ∧ ∃ g, m.globals = some g ∧ bad m.diverters[k] g
      let fails := fun c i : Nat =>
        (c = 1 ∧ i = 255 ∧ m.globals = none)
        ∨ (c = 2 ∧ ∃ o : OutId, i = o.1 ∧ 2 ≤ (m.stationOuts ++ m.diverterOuts).count o)
        ∨ (c = 3 ∧ ∃ o : OutId, i = o.1
          ∧ ((o ∈ m.stationOuts ∧ ¬staged o .pulse) ∨ (o ∈ m.diverterOuts ∧ ¬staged o .latch)))
        ∨ (c = 4 ∧ i = 0 ∧ (m.diverters[(0 : Lane)]).output = none)
        ∨ (c = 4 ∧ ∃ (j : StationId) (dist busy : Nat) (outs : Vector (Option OutId) 4), i = 8 + j.1
          ∧ m.stations[j] = .lane dist busy outs ∧ outs[(0 : Lane)] = none)
        ∨ (c = 5 ∧ lane i (fun d g => (d.dist : Int) - d.openLead < ((4095 + g.confirmSpan + g.arm : Nat) : Int)))
        ∨ (c = 6 ∧ lane i (fun d _ => ∃ j : StationId, m.stations[j] ≠ .absent ∧ d.dist ≤ (m.stations[j]).distance))
        ∨ (c = 7 ∧ lane i (fun d g => g.stackDist ≤ d.dist))
      ∀ check item : Byte, m.fault = some (check, item) ↔ fails check.toNat item.toNat
        ∧ ∀ c i : Nat, fails c i → check.toNat < c ∨ (check.toNat = c ∧ item.toNat ≤ i))

/-- R2, R12, R93, R95, R148, R149, R160: an accepted COMMIT_MAP, in one action; a refused one changes
nothing and names the check; after commit it is FROZEN. -/
def Obligations.CommitPutsTheMapInForce : Prop :=
  ∀ (s : State) (src : Byte) (m : StationMap) (g : Globals), s.pins.rst = true → s.addressable src = true →
    m = s.setup.staging →
    (s.line = .init → m.fault = none → m.globals = some g → ∃ u, exec (.commitMap src []) s = .next u
      ∧ u.line = .ready
      ∧ u.setup = { s.setup with
          committed := some m, lanes := some ⟨.wide, 1, .reject, 0⟩
          articles := Vector.replicate 64 none, plans := Vector.replicate 16 none
          customers := Vector.replicate 16 none
          articleLocks := Vector.replicate 64 false, planLocks := Vector.replicate 16 false }
      ∧ u.unit = { s.unit with prescale := g.prescale, residue := 0, confirmSpan := g.confirmSpan }
      ∧ (∀ o : OutId, (∀ c, o ∈ m.stationOuts → m.outputs[o] = some c → u.outs[o] = ⟨.station, c.shot, none, 0, false⟩)
          ∧ (o ∉ m.stationOuts → o ∈ m.diverterOuts → u.outs[o] = ⟨.diverter, 0, none, 0, false⟩)
          ∧ (o ∉ m.stationOuts → o ∉ m.diverterOuts → u.outs[o] = ⟨.unused, 0, none, 0, false⟩))
      ∧ u.sched = ⟨s.sched.entries, Vector.replicate 16 none⟩
      ∧ (let v := s.report [plainAnswer s src 0x24 0]
         let w := v.report [⟨g.reportNode, s.nodeByte, 0x85, [0, 1, 0] ++ posBytes s.position⟩]
         u.link = w.link ∧ u.loss = w.loss)
      ∧ u.queues = s.queues ∧ u.track = s.track ∧ u.stackers = s.stackers ∧ u.tally = s.tally ∧ u.node = s.node)
    ∧ (∀ check item, s.line = .init → m.fault = some (check, item) →
        exec (.commitMap src []) s = .next (s.report [⟨src, s.nodeByte, 0x80, [0x24, 4, check, item]⟩]))
    ∧ (s.line ≠ .init → exec (.commitMap src []) s = .next (s.report [plainAnswer s src 0x24 5]))

/-- R150 to R155: a load to a working table that passes its checks writes its entry whole and nothing
else, and one whose content fails is refused INVALID and writes nothing; LOCK_ENTRY sets its mark. That a plan above 15
is refused for every route, and that a valid field above 1 and a default article above 63 are content, are the model's
choices (entry 19). -/
def Obligations.WorkingTableLoadsWriteTheirEntry : Prop :=
  ∀ (s : State) (src : Byte), s.pins.rst = true → s.addressable src = true →
    let x := s.setup
    let did := fun (x' : Setup) (kind code : Byte) =>
      (Host.Outcome.next ((s.setSetup x').report [plainAnswer s src kind code]) : Result)
    let invalid := fun kind : Byte => (Host.Outcome.next (s.report [plainAnswer s src kind 4]) : Result)
    let word := fun h l : Byte => h.toNat * 256 + l.toNat
    (∀ (a : Article) (row : ArticleRow), (s.line = .ready ∨ s.line = .run) → x.articleLocks[a] = false →
      (row.route = .stack → x.plans[row.plan] ≠ none) → 1 ≤ row.min → row.min ≤ row.max → row.max ≤ 4095 →
      let load := fun target : Nat => Instr.loadArticle src ([byteOf a, 1, (match row.route with
          | .stack => 0
          | .flat => 1
          | .reject => 2), byteOf row.plan] ++ bytes16 row.min ++ bytes16 row.max ++ [byteOf target])
      (4 ≤ row.target → row.target ≤ 255 →
        exec (load row.target) s = did { x with articles := upd x.articles a (some row) } 0x30 0)
      ∧ (∀ n, 1 ≤ n → n ≤ 3 →
          exec (load n) s = did { x with articles := upd x.articles a (some { row with target := 4 }) } 0x30 1))
    ∧ (∀ (a : Article) (b1 b2 b3 b4 b5 b6 b7 : Byte), (s.line = .ready ∨ s.line = .run) → x.articleLocks[a] = false →
        exec (.loadArticle src [byteOf a, 0, b1, b2, b3, b4, b5, b6, b7]) s =
          did { x with articles := upd x.articles a none } 0x30 0)
    ∧ (∀ (a : Article) (valid route plan min1 min0 max1 max0 target : Byte), (s.line = .ready ∨ s.line = .run) →
        x.articleLocks[a] = false →
        1 < valid.toNat ∨ (valid = 1 ∧ (2 < route.toNat ∨ 15 < plan.toNat
          ∨ (route = 0 ∧ ∃ n : PlanNo, plan = byteOf n ∧ x.plans[n] = none) ∨ word min1 min0 = 0 ∨ 4095 < word max1 max0
          ∨ word max1 max0 < word min1 min0 ∨ target = 0)) →
        exec (.loadArticle src [byteOf a, valid, route, plan, min1, min0, max1, max0, target]) s = invalid 0x30)
    ∧ (∀ (n : PlanNo) (steps : List PlanStep), (s.line = .ready ∨ s.line = .run) → x.planLocks[n] = false →
        s.planOk steps = true → (∀ y ∈ steps, -128 ≤ y.trim ∧ y.trim ≤ 127) →
        exec (.loadPlan src ([byteOf n, byteOf steps.length] ++ steps.flatMap (fun y =>
          [byteOf y.station, byteOf y.num, byteOf y.den, BitVec.ofInt 8 y.trim]))) s =
          did { x with plans := upd x.plans n (some steps) } 0x31 0)
    ∧ (∀ (n : PlanNo) (quads : List (Byte × Byte × Byte × Byte)), (s.line = .ready ∨ s.line = .run) →
        x.planLocks[n] = false → quads.length ≤ 63 →
        (4 < quads.length
          ∨ (∃ q ∈ quads, 5 < q.1.toNat ∨ q.2.1.toNat < 1 ∨ 7 < q.2.1.toNat ∨ q.2.2.1.toNat < 2 ∨ 8 < q.2.2.1.toNat
            ∨ q.2.2.1.toNat ≤ q.2.1.toNat ∨ ∃ i : StationId, q.1 = byteOf i ∧ (s.map.stations[i] = .absent
              ∨ ∃ (k : Lane) (dist busy : Nat) (outs : Vector (Option OutId) 4), s.enabled k = true
                ∧ s.map.stations[i] = .lane dist busy outs ∧ outs[k] = none))
          ∨ ∃ (l r : List (Byte × Byte × Byte × Byte)) (q q' : Byte × Byte × Byte × Byte) (i i' : StationId),
            quads = l ++ q :: q' :: r ∧ q.1 = byteOf i ∧ q'.1 = byteOf i'
              ∧ (s.map.stations[i']).distance ≤ (s.map.stations[i]).distance) →
        exec (.loadPlan src ([byteOf n, byteOf quads.length] ++ quads.flatMap (fun q => [q.1, q.2.1, q.2.2.1, q.2.2.2]))) s =
          invalid 0x31)
    ∧ (∀ (i : CustomerIndex) (valid b1 b0 m1 m0 group : Byte), (s.line = .ready ∨ s.line = .run ∨ s.line = .drain) →
        1 < valid.toNat ∨ (valid = 1 ∧ (group = 0 ∨ 15 < group.toNat)) →
        exec (.loadCustomer src [byteOf i, valid, b1, b0, m1, m0, group]) s = invalid 0x32)
    ∧ (∀ plan mask policy article : Byte, s.line = .ready →
        2 < plan.toNat ∨ mask = 0 ∨ 15 < mask.toNat ∨ 1 < policy.toNat ∨ 63 < article.toNat
          ∨ (∃ k : Lane, mask.getLsbD k = true ∧ ((plan = 0 ∧ k ≠ 0) ∨ (plan = 1 ∧ k ≠ 0 ∧ k ≠ 2)
            ∨ (s.map.diverters[k]).output = none ∨ ∃ (i : StationId) (dist busy : Nat) (outs : Vector (Option OutId) 4),
              s.map.stations[i] = .lane dist busy outs ∧ outs[k] = none)) →
        exec (.loadLanes src [plan, mask, policy, article]) s = invalid 0x33)
    ∧ (∀ (i : CustomerIndex) (b1 b0 m1 m0 : Byte) (g : Group), (s.line = .ready ∨ s.line = .run ∨ s.line = .drain) → g ≠ 0 →
        exec (.loadCustomer src [byteOf i, 1, b1, b0, m1, m0, byteOf g]) s =
            did { x with customers := upd x.customers i (some ⟨b1 ++ b0, m1 ++ m0, g⟩) } 0x32 0
        ∧ exec (.loadCustomer src [byteOf i, 0, b1, b0, m1, m0, byteOf g]) s =
            did { x with customers := upd x.customers i none } 0x32 0)
    ∧ (∀ l : LanePlan, s.line = .ready → l.mask ≠ 0 →
        (∀ k : Lane, l.mask.getLsbD k = true → l.plan.holds k = true ∧ s.map.laneFitted k = true) →
        exec (.loadLanes src [(match l.plan with
          | .wide => 0
          | .dual => 1
          | .quad => 2), l.mask.setWidth 8, (match l.policy with
          | .reject => 0
          | .stack => 1), byteOf l.default]) s = did { x with lanes := some l } 0x33 0)
    ∧ (∀ (a : Article) (n : PlanNo), s.line ≠ .init →
        exec (.lockEntry src [0, byteOf a]) s = did { x with articleLocks := upd x.articleLocks a true } 0x34 0
        ∧ exec (.lockEntry src [1, byteOf n]) s = did { x with planLocks := upd x.planLocks n true } 0x34 0)

/-- R143, R148, R150 to R155, R163: a command of the Setup Store of the wrong form is refused INVALID in every line
state; a load of good form in a line state that does not take it is refused, FROZEN for the staging copy and
WRONG_STATE for a working table; a locked entry is refused LOCKED whatever the content; none of these changes the
store. That the line state and the lock come before a plan number, a default article and a valid field out of range is
the model's choice (entry 19). -/
def Obligations.LoadsAreRefusedByStateAndLock : Prop :=
  ∀ (s : State) (src : Byte), s.pins.rst = true → s.addressable src = true →
    let refused := fun kind code : Byte => (Host.Outcome.next (s.report [plainAnswer s src kind code]) : Result)
    (∀ p : List Byte,
      (p.length ≠ 12 → exec (.setupGlobals src p) s = refused 0x20 4)
      ∧ (p.length ≠ 10 ∨ (∃ b ∈ p.head?, 5 < b.toNat) → exec (.setupStation src p) s = refused 0x21 4)
      ∧ (p.length ≠ 4 ∨ (∃ b ∈ p.head?, 15 < b.toNat) → exec (.setupOutput src p) s = refused 0x22 4)
      ∧ (p.length ≠ 8 ∨ (∃ b ∈ p.head?, 3 < b.toNat) → exec (.setupDiverter src p) s = refused 0x23 4)
      ∧ (p ≠ [] → exec (.commitMap src p) s = refused 0x24 4)
      ∧ (p.length ≠ 9 ∨ (∃ b ∈ p.head?, 63 < b.toNat) → exec (.loadArticle src p) s = refused 0x30 4)
      ∧ ((∀ c ∈ p[1]?, p.length ≠ 2 + 4 * c.toNat) ∨ (∃ b ∈ p.head?, 15 < b.toNat) →
          exec (.loadPlan src p) s = refused 0x31 4)
      ∧ (p.length ≠ 7 ∨ (∃ b ∈ p.head?, 15 < b.toNat) → exec (.loadCustomer src p) s = refused 0x32 4)
      ∧ (p.length ≠ 4 → exec (.loadLanes src p) s = refused 0x33 4)
      ∧ (p.length ≠ 2 → exec (.lockEntry src p) s = refused 0x34 4))
    ∧ (∀ b : Byte, (63 < b.toNat → exec (.lockEntry src [0, b]) s = refused 0x34 4)
        ∧ (15 < b.toNat → exec (.lockEntry src [1, b]) s = refused 0x34 4)
        ∧ ∀ table : Byte, 1 < table.toNat → exec (.lockEntry src [table, b]) s = refused 0x34 4)
    ∧ (s.line ≠ .init →
      (∀ p : List Byte, p.length = 12 → exec (.setupGlobals src p) s = refused 0x20 5)
      ∧ (∀ (i : StationId) (p : List Byte), p.length = 9 → exec (.setupStation src (byteOf i :: p)) s = refused 0x21 5)
      ∧ (∀ (o : OutId) (p : List Byte), p.length = 3 → exec (.setupOutput src (byteOf o :: p)) s = refused 0x22 5)
      ∧ (∀ (k : Lane) (p : List Byte), p.length = 7 → exec (.setupDiverter src (byteOf k :: p)) s = refused 0x23 5))
    ∧ (∀ (a : Article) (p : List Byte), p.length = 8 →
        (s.line ≠ .ready → s.line ≠ .run → exec (.loadArticle src (byteOf a :: p)) s = refused 0x30 2)
        ∧ ((s.line = .ready ∨ s.line = .run) → s.setup.articleLocks[a] = true →
            exec (.loadArticle src (byteOf a :: p)) s = refused 0x30 3))
    ∧ (∀ (n : PlanNo) (c : Byte) (p : List Byte), p.length = 4 * c.toNat →
        (s.line ≠ .ready → s.line ≠ .run → exec (.loadPlan src (byteOf n :: c :: p)) s = refused 0x31 2)
        ∧ ((s.line = .ready ∨ s.line = .run) → s.setup.planLocks[n] = true →
            exec (.loadPlan src (byteOf n :: c :: p)) s = refused 0x31 3))
    ∧ (∀ (i : CustomerIndex) (p : List Byte), p.length = 6 → s.line = .init ∨ s.line = .service →
        exec (.loadCustomer src (byteOf i :: p)) s = refused 0x32 2)
    ∧ (∀ p : List Byte, p.length = 4 → s.line ≠ .ready → exec (.loadLanes src p) s = refused 0x33 2)
    ∧ (s.line = .init → (∀ a : Article, exec (.lockEntry src [0, byteOf a]) s = refused 0x34 2)
        ∧ ∀ n : PlanNo, exec (.lockEntry src [1, byteOf n]) s = refused 0x34 2)

/-! ## Stacker commands, forced outputs, reads -/

/-- R115, R116, R121 to R126: each STACK_CMD that passes its checks, by phase; and CLEAR_LANE at a stopped
stacker: the shelf goes into unplaced, then the open stack closes with cause FAULT_CLEAR, or the stacker
collects. -/
def Obligations.StackCommandsActByPhase : Prop :=
  ∀ (s : State) (src v : Byte) (k : Lane), s.pins.rst = true → s.addressable src = true → s.line.runs = true →
    s.enabled k = true →
    let st := s.stackers[k]
    let l := byteOf k
    let ok := fun u : State => (Host.Outcome.next (u.report [plainAnswer s src 0x42 0]) : Result)
    let closed := s.closeStack k .command .offered
    let pause := s.setStacker k { st with pausePending := true }
    (st.phase = .collecting → st.stack ≠ none →
      exec (.stackCmdClose src l v) s = ok closed
      ∧ exec (.stackCmdStop src l v) s = ok (closed.setStacker k { st with
          phase := .offered, stack := none, serial := st.serial + 1, unplaced := 0, pausePending := true })
      ∧ exec (.stackCmdStopAfter src l v) s = ok pause)
    ∧ (st.phase = .collecting → st.stack = none →
        exec (.stackCmdClose src l v) s = ok s
        ∧ exec (.stackCmdStop src l v) s = ok (s.setStacker k { st with phase := .paused })
        ∧ exec (.stackCmdStopAfter src l v) s = ok (s.setStacker k { st with phase := .paused }))
    ∧ (st.phase = .offered ∨ st.phase = .lowering →
        exec (.stackCmdClose src l v) s = ok s ∧ exec (.stackCmdStop src l v) s = ok pause
        ∧ exec (.stackCmdStopAfter src l v) s = ok pause)
    ∧ (st.phase = .paused →
        exec (.stackCmdClose src l v) s = ok s ∧ exec (.stackCmdStop src l v) s = ok s
        ∧ exec (.stackCmdStopAfter src l v) s = ok s
        ∧ (st.shelf = [] → exec (.stackCmdResume src l v) s =
            ok ((s.setStacker k { st with phase := .collecting }).drainCloses))
        ∧ (∀ p rest, st.shelf = p :: rest → exec (.stackCmdResume src l v) s =
            ok ((s.setStacker k { st with
              phase := .collecting, shelf := []
              stack := some ⟨p.key, rest.length + 1, (p :: rest).countP (fun x => x.stray),
                if st.override ≠ 0 then st.override else p.target, p.startsBatch⟩ }).drainCloses)))
    ∧ (v = 0 ∨ 4 ≤ v.toNat → exec (.stackCmdTarget src l v) s = ok (s.setStacker k { st with override := v.toNat }))
    ∧ (1 ≤ v.toNat → v.toNat ≤ 3 → exec (.stackCmdTarget src l v) s =
        .next ((s.setStacker k { st with override := 4 }).report [plainAnswer s src 0x42 1]))
    ∧ (st.phase = .stopped →
        let spilt := min 65535 (st.unplaced + st.shelf.length)
        let cleared := fun u : State => (Host.Outcome.next (u.report [plainAnswer s src 0x43 0]) : Result)
        (st.stack = none → exec (.clearLane src [l]) s =
          cleared (s.setStacker k { st with phase := .collecting, shelf := [], unplaced := spilt }))
        ∧ (∀ o, st.stack = some o → exec (.clearLane src [l]) s =
            cleared (((s.emit (.stackDone k st.serial o.key o.pieces o.strays o.target o.batchStart .faultClear spilt)).credit
              o.key o.pieces 1 0).setStacker k { st with
                phase := .offered, stack := none, shelf := [], serial := st.serial + 1, unplaced := 0 })))

/-- R102, R121, R124, R126, R159, R163: every LINE_MODE that makes no row of R158, and commands to a stacker or an
output that is out of range, outside their line states, to a lane not enabled or in the wrong phase are refused and
change nothing. -/
def Obligations.GatedCommandsAreRefused : Prop :=
  ∀ (s : State) (src v : Byte) (k : Lane) (o : OutId), s.pins.rst = true → s.addressable src = true →
    let l := byteOf k
    let refused := fun kind code : Byte => (Host.Outcome.next (s.report [plainAnswer s src kind code]) : Result)
    (s.line.runs = false → exec (.stackCmdClose src l v) s = refused 0x42 2 ∧ exec (.stackCmdStop src l v) s = refused 0x42 2
      ∧ exec (.stackCmdStopAfter src l v) s = refused 0x42 2 ∧ exec (.stackCmdResume src l v) s = refused 0x42 2
      ∧ exec (.stackCmdTarget src l v) s = refused 0x42 2 ∧ exec (.clearLane src [l]) s = refused 0x43 2)
    ∧ (s.line.runs = true → s.enabled k = false → exec (.stackCmdClose src l v) s = refused 0x42 4
        ∧ exec (.stackCmdStop src l v) s = refused 0x42 4 ∧ exec (.stackCmdStopAfter src l v) s = refused 0x42 4
        ∧ exec (.stackCmdResume src l v) s = refused 0x42 4 ∧ exec (.stackCmdTarget src l v) s = refused 0x42 4
        ∧ exec (.clearLane src [l]) s = refused 0x43 4)
    ∧ (∀ b : Byte, 3 < b.toNat → exec (.stackCmdClose src b v) s = refused 0x42 4
        ∧ exec (.stackCmdStop src b v) s = refused 0x42 4 ∧ exec (.stackCmdStopAfter src b v) s = refused 0x42 4
        ∧ exec (.stackCmdResume src b v) s = refused 0x42 4 ∧ exec (.stackCmdTarget src b v) s = refused 0x42 4
        ∧ exec (.clearLane src [b]) s = refused 0x43 4)
    ∧ (∀ p : List Byte, p.length ≠ 1 → exec (.clearLane src p) s = refused 0x43 4)
    ∧ (∀ b : Byte, 15 < b.toNat → exec (.forceOutputSet src b) s = refused 0x44 4
        ∧ exec (.forceOutputClear src b) s = refused 0x44 4 ∧ exec (.forceOutputShot src b) s = refused 0x44 4)
    ∧ (s.line.runs = true → s.enabled k = true → (s.stackers[k]).phase = .stopped →
        exec (.stackCmdClose src l v) s = refused 0x42 2 ∧ exec (.stackCmdStop src l v) s = refused 0x42 2
        ∧ exec (.stackCmdStopAfter src l v) s = refused 0x42 2)
    ∧ (s.line.runs = true → s.enabled k = true → (s.stackers[k]).phase ≠ .paused →
        exec (.stackCmdResume src l v) s = refused 0x42 2)
    ∧ (s.line.runs = true → s.enabled k = true → (s.stackers[k]).phase ≠ .stopped →
        exec (.clearLane src [l]) s = refused 0x43 2)
    ∧ (s.line ≠ .service → exec (.forceOutputSet src (byteOf o)) s = refused 0x44 2
        ∧ exec (.forceOutputClear src (byteOf o)) s = refused 0x44 2 ∧ exec (.forceOutputShot src (byteOf o)) s = refused 0x44 2)
    ∧ (s.line = .service → (s.outs[o]).role = .unused → exec (.forceOutputSet src (byteOf o)) s = refused 0x44 4
        ∧ exec (.forceOutputClear src (byteOf o)) s = refused 0x44 4 ∧ exec (.forceOutputShot src (byteOf o)) s = refused 0x44 4)
    ∧ (s.line = .service → (s.outs[o]).role = .diverter → exec (.forceOutputShot src (byteOf o)) s = refused 0x44 4)
    ∧ (s.line ≠ .service → exec (.lineModeReady src false) s = refused 0x40 2)
    ∧ (s.line ≠ .ready → s.line ≠ .drain → exec (.lineModeRun src false) s = refused 0x40 2)
    ∧ (s.line ≠ .run → exec (.lineModeDrain src false) s = refused 0x40 2)
    ∧ (s.line ≠ .ready → exec (.lineModeService src false) s = refused 0x40 2)

/-- R96, R102 to R105: FORCE_OUTPUT in SERVICE on an output in use, and the level of its pin after it; and, in every
state, the level of every output by its record. -/
def Obligations.ForcedOutputsFollowTheCommand : Prop :=
  ∀ (s : State) (src : Byte) (o : OutId), s.pins.rst = true → s.addressable src = true → s.line = .service →
    (s.outs[o]).role ≠ .unused →
    let did := fun r : OutputRecord => (Host.Outcome.next ((s.setOut o r).report [plainAnswer s src 0x44 0]) : Result)
    let level := fun (r : OutputRecord) (b : Bool) => ((s.setOut o r).report [plainAnswer s src 0x44 0]).outLevel o = b
    (∀ (u : State) (a : OutId), u.outLevel a = true ↔
      ((u.outs[a]).role = .station ∧ ((u.outs[a]).hold = true ∨ (u.outs[a]).timer ≠ none))
        ∨ ((u.outs[a]).role = .diverter ∧ ((u.outs[a]).hold = true ∨ 0 < (u.outs[a]).openCount)))
    ∧ exec (.forceOutputSet src (byteOf o)) s = did { s.outs[o] with hold := true, timer := none }
    ∧ level { s.outs[o] with hold := true, timer := none } true
    ∧ exec (.forceOutputClear src (byteOf o)) s = did { s.outs[o] with hold := false, timer := none, openCount := 0 }
    ∧ level { s.outs[o] with hold := false, timer := none, openCount := 0 } false
    ∧ ((s.outs[o]).role = .station → exec (.forceOutputShot src (byteOf o)) s =
        did { s.outs[o] with hold := false, timer := some (s.outs[o]).shot }
        ∧ level { s.outs[o] with hold := false, timer := some (s.outs[o]).shot } true)

/-- R135 to R138, R140, R141: a freeze taken on an empty snapshot, a freeze not taken, and a read, whose
rows leave when its answer finds room; either of another form is refused INVALID. -/
def Obligations.TallyIsFrozenAndReadOut : Prop :=
  ∀ (s : State) (src : Byte) (clear : Bool), s.pins.rst = true → s.addressable src = true →
    let t := s.tally
    let freeze := Instr.tallyFreeze src [if clear then 1 else 0]
    let answer := fun (kind detail : Byte) (body : List Byte) =>
      (⟨src, s.nodeByte, 0x80, [kind, 0, detail] ++ body⟩ : Telegram)
    let stamp := posBytes (t.snapStamp.getD 0)
    let zero := t.overflow.pieces = 0 ∧ t.overflow.stackCount = 0 ∧ t.overflow.rejects = 0
    let rows := t.live.map (fun x => (⟨some x.1, x.2⟩ : SnapRow)) ++ (if zero then [] else [⟨none, t.overflow⟩])
    (t.snapRows = [] → exec freeze s = .next ((s.setTally
        ⟨if clear then [] else t.live, if clear then ⟨0, 0, 0, false⟩ else t.overflow, t.freezeSerial + 1,
          t.freezeSerial + 1, some s.position, clear, rows⟩).report
        [answer 0x50 0 ([1, byteOf rows.length, t.freezeSerial + 1] ++ posBytes s.position ++ [if clear then 1 else 0])]))
    ∧ (t.snapRows ≠ [] → exec freeze s = .next (s.report
        [answer 0x50 0 ([0, byteOf t.snapRows.length, t.snapSerial] ++ stamp ++ [if t.snapCleared then 1 else 0])]))
    ∧ (s.link.reports.length < 16 → exec (.tallyRead src []) s = .next ((s.setTally { t with
        snapRows := t.snapRows.drop 3 }).report
          [answer 0x51 (byteOf ((if t.snapStamp = none then 127 else t.snapRows.length - 3) + (if t.snapCleared then 128 else 0)))
            ([t.snapSerial] ++ stamp ++ (t.snapRows.take 3).flatMap (fun x =>
              [byteOf ((match x.key with
                | some key => key.group.1
                | none => 16) + (if x.row.saturated then 128 else 0)), (match x.key with
                | some key => byteOf key.article
                | none => 255)]
              ++ bytes24 x.row.pieces ++ bytes24 x.row.stackCount ++ bytes24 x.row.rejects))]))
    ∧ (16 ≤ s.link.reports.length → exec (.tallyRead src []) s = .next { s with loss := true })
    ∧ ∀ p : List Byte, (p ∉ ([[0], [1]] : List (List Byte)) →
          exec (.tallyFreeze src p) s = .next (s.report [plainAnswer s src 0x50 4]))
        ∧ (p ≠ [] → exec (.tallyRead src p) s = .next (s.report [plainAnswer s src 0x51 4]))

/-- R14, R54, R127, R168, R169, R177: STATUS_READ answers the lane's values, field by field, and clears the
report-loss flag as its answer enters the queue; one of another form is refused INVALID. `live` counts the live records
that meet a condition, `hold` is R127, and the HOLD pin is at its level. That yes, set and asserted are the byte 1, and
no, clear and released the byte 0, is the model's choice (entry 35). -/
def Obligations.StatusReadShowsTheLane : Prop :=
  ∀ (s : State) (src : Byte) (k : Lane), s.pins.rst = true → s.addressable src = true →
    let st := s.stackers[k]
    let c := s.track.counters[k]
    let flag := fun b : Bool => (if b then 1 else 0 : Byte)
    let live := fun p : ItemRecord → Bool => (allTags.filter (fun t => (s.record t).any p)).length
    let enabled := match s.setup.lanes with
      | none => decide (k = 0)
      | some l => decide (l.mask.getLsbD k = true ∧ (l.plan = .quad ∨ k = 0 ∨ (l.plan = .dual ∧ k = 2)))
    let hold := s.line ≠ .run ∨ enabled = false ∨ st.phase = .paused ∨ st.phase = .stopped
      ∨ ((st.phase = .offered ∨ st.phase = .lowering) ∧ (s.map.diverters[k]).cap ≤ st.shelf.length
        + live (fun r => decide (r.lane = k ∧ (r.state = .folding ∨ r.state = .toStack) ∧ r.reason = none)))
    let body := [(match s.line with
        | .init => 0
        | .ready => 1
        | .run => 2
        | .drain => 3
        | .service => 4), flag s.setup.committed.isSome, flag s.loss, byteOf s.link.errors, byteOf k, flag enabled,
      (match st.phase with
        | .collecting => 0
        | .offered => 1
        | .lowering => 2
        | .paused => 3
        | .stopped => 4), flag st.pausePending]
      ++ bytes16 ((st.stack.map (fun o => o.pieces)).getD 0)
      ++ [byteOf st.shelf.length, (if hold then 1 else 0), byteOf (s.queues[k]).length, byteOf (live (fun r => decide (r.lane = k))),
        byteOf st.override]
      ++ posBytes c.entered ++ posBytes c.arrived ++ posBytes c.rejected ++ posBytes c.jammed ++ posBytes c.discarded
    s.enabled k = enabled ∧ (s.holdLevel k = true ↔ hold)
      ∧ exec (.statusRead src [byteOf k]) s =
        .next ((s.setLoss false).report [⟨src, s.nodeByte, 0x80, [0x52, 0, 0] ++ body⟩])
      ∧ ∀ p : List Byte, p.length ≠ 1 ∨ (∃ b ∈ p, 3 < b.toNat) →
        exec (.statusRead src p) s = .next (s.report [plainAnswer s src 0x52 4])

/-- R55, R173, R177: ITEM_READ answers a free slot by its tag, a record without steps by part 1, and a
record with steps by part 1 and part 2, which enter the Report Queue together; one of another form is refused
INVALID. -/
def Obligations.ItemReadShowsTheRecord : Prop :=
  ∀ (s : State) (src : Byte) (t : Tag), s.pins.rst = true → s.addressable src = true →
    let answer := fun (detail : Byte) (body : List Byte) =>
      (⟨src, s.nodeByte, 0x80, [0x53, 0, detail] ++ body⟩ : Telegram)
    (∀ p : List Byte, p.length ≠ 1 ∨ (∃ b ∈ p, 23 < b.toNat) →
      exec (.itemRead src p) s = .next (s.report [plainAnswer s src 0x53 4]))
    ∧ (s.record t = none → exec (.itemRead src [byteOf t]) s = .next (s.report [answer 0 [byteOf t]]))
    ∧ (∀ r, s.record t = some r →
        let bit := fun (b : Bool) (n : Nat) => if b then n else 0
        let part1 := answer 1 (([byteOf t, byteOf r.lane, (match r.state with
              | .entering => 0
              | .folding => 1
              | .toStack => 2
              | .diverting => 3), byteOf (s.track.order.idxOf t), byteOf r.article, byteOf r.group,
            byteOf (bit r.anonymous 1 + bit r.startsBatch 2 + bit r.trail.isSome 4 + bit r.len.isSome 8 + bit r.expected.isSome 16)] : List Byte)
          ++ bytes16 (r.customer.getD 0).toNat ++ ([(match r.route with
              | .stack => 0
              | .flat => 1
              | .reject => 2), (match r.reason with
              | none => 0
              | some .anonymous => 1
              | some .articleOff => 2
              | some .undersize => 3
              | some .oversize => 4
              | some .lateFold => 5
              | some .conflict => 6
              | some .laneStopped => 7)] : List Byte)
          ++ posBytes r.lead ++ posBytes (r.trail.getD 0) ++ bytes16 (r.len.getD 0) ++ bytes16 (r.curLen.getD 0)
          ++ bytes16 r.min ++ bytes16 r.max ++ [byteOf r.target] ++ posBytes r.headRef ++ posBytes (r.expected.getD 0)
          ++ [byteOf (s.sched.entries.countP (fun e => decide (e.tag = t))), byteOf r.steps.length])
        let part2 := answer 2 ([byteOf t] ++ r.steps.flatMap (fun x =>
          [byteOf x.station, byteOf (x.num * 16 + x.den), BitVec.ofInt 8 x.trim] ++ bytes16 (x.d.getD 65535)
            ++ posBytes (x.fire.getD 0) ++ ([(match x.status with
              | .pending => 0
              | .fired => 1
              | .cancelled => 2)] : List Byte)))
        exec (.itemRead src [byteOf t]) s = .next (s.report (if r.steps = [] then [part1] else [part1, part2])))
end

