-- ==== Sys2Proof/Laws/State.lean ====
section
/-! SUPPORT. The fields of a state after an update of one of them (one lemma per field per update, true by `rfl`), what
the updates of a part of a table are, and what the reads of a state depend on. -/

namespace Sys2Proof.Machine

@[simp] theorem setPins_pending (s : State) (x) : (s.setPins x).pending = s.pending := rfl
@[simp] theorem setPins_pins (s : State) (x) : (s.setPins x).pins = x := rfl
@[simp] theorem setPins_node (s : State) (x) : (s.setPins x).node = s.node := rfl
@[simp] theorem setPins_unit (s : State) (x) : (s.setPins x).unit = s.unit := rfl
@[simp] theorem setPins_line (s : State) (x) : (s.setPins x).line = s.line := rfl
@[simp] theorem setPins_loss (s : State) (x) : (s.setPins x).loss = s.loss := rfl
@[simp] theorem setPins_queues (s : State) (x) : (s.setPins x).queues = s.queues := rfl
@[simp] theorem setPins_track (s : State) (x) : (s.setPins x).track = s.track := rfl
@[simp] theorem setPins_sched (s : State) (x) : (s.setPins x).sched = s.sched := rfl
@[simp] theorem setPins_outs (s : State) (x) : (s.setPins x).outs = s.outs := rfl
@[simp] theorem setPins_stackers (s : State) (x) : (s.setPins x).stackers = s.stackers := rfl
@[simp] theorem setPins_tally (s : State) (x) : (s.setPins x).tally = s.tally := rfl
@[simp] theorem setPins_setup (s : State) (x) : (s.setPins x).setup = s.setup := rfl
@[simp] theorem setPins_link (s : State) (x) : (s.setPins x).link = s.link := rfl
@[simp] theorem setPins_freeIndex (s : State) (x) : (s.setPins x).freeIndex = s.freeIndex := rfl

@[simp] theorem setUnit_pending (s : State) (x) : (s.setUnit x).pending = s.pending := rfl
@[simp] theorem setUnit_pins (s : State) (x) : (s.setUnit x).pins = s.pins := rfl
@[simp] theorem setUnit_node (s : State) (x) : (s.setUnit x).node = s.node := rfl
@[simp] theorem setUnit_unit (s : State) (x) : (s.setUnit x).unit = x := rfl
@[simp] theorem setUnit_line (s : State) (x) : (s.setUnit x).line = s.line := rfl
@[simp] theorem setUnit_loss (s : State) (x) : (s.setUnit x).loss = s.loss := rfl
@[simp] theorem setUnit_queues (s : State) (x) : (s.setUnit x).queues = s.queues := rfl
@[simp] theorem setUnit_track (s : State) (x) : (s.setUnit x).track = s.track := rfl
@[simp] theorem setUnit_sched (s : State) (x) : (s.setUnit x).sched = s.sched := rfl
@[simp] theorem setUnit_outs (s : State) (x) : (s.setUnit x).outs = s.outs := rfl
@[simp] theorem setUnit_stackers (s : State) (x) : (s.setUnit x).stackers = s.stackers := rfl
@[simp] theorem setUnit_tally (s : State) (x) : (s.setUnit x).tally = s.tally := rfl
@[simp] theorem setUnit_setup (s : State) (x) : (s.setUnit x).setup = s.setup := rfl
@[simp] theorem setUnit_link (s : State) (x) : (s.setUnit x).link = s.link := rfl
@[simp] theorem setUnit_freeIndex (s : State) (x) : (s.setUnit x).freeIndex = s.freeIndex := rfl

@[simp] theorem setLine_pending (s : State) (x) : (s.setLine x).pending = s.pending := rfl
@[simp] theorem setLine_pins (s : State) (x) : (s.setLine x).pins = s.pins := rfl
@[simp] theorem setLine_node (s : State) (x) : (s.setLine x).node = s.node := rfl
@[simp] theorem setLine_unit (s : State) (x) : (s.setLine x).unit = s.unit := rfl
@[simp] theorem setLine_line (s : State) (x) : (s.setLine x).line = x := rfl
@[simp] theorem setLine_loss (s : State) (x) : (s.setLine x).loss = s.loss := rfl
@[simp] theorem setLine_queues (s : State) (x) : (s.setLine x).queues = s.queues := rfl
@[simp] theorem setLine_track (s : State) (x) : (s.setLine x).track = s.track := rfl
@[simp] theorem setLine_sched (s : State) (x) : (s.setLine x).sched = s.sched := rfl
@[simp] theorem setLine_outs (s : State) (x) : (s.setLine x).outs = s.outs := rfl
@[simp] theorem setLine_stackers (s : State) (x) : (s.setLine x).stackers = s.stackers := rfl
@[simp] theorem setLine_tally (s : State) (x) : (s.setLine x).tally = s.tally := rfl
@[simp] theorem setLine_setup (s : State) (x) : (s.setLine x).setup = s.setup := rfl
@[simp] theorem setLine_link (s : State) (x) : (s.setLine x).link = s.link := rfl
@[simp] theorem setLine_freeIndex (s : State) (x) : (s.setLine x).freeIndex = s.freeIndex := rfl

@[simp] theorem setLoss_pending (s : State) (x) : (s.setLoss x).pending = s.pending := rfl
@[simp] theorem setLoss_pins (s : State) (x) : (s.setLoss x).pins = s.pins := rfl
@[simp] theorem setLoss_node (s : State) (x) : (s.setLoss x).node = s.node := rfl
@[simp] theorem setLoss_unit (s : State) (x) : (s.setLoss x).unit = s.unit := rfl
@[simp] theorem setLoss_line (s : State) (x) : (s.setLoss x).line = s.line := rfl
@[simp] theorem setLoss_loss (s : State) (x) : (s.setLoss x).loss = x := rfl
@[simp] theorem setLoss_queues (s : State) (x) : (s.setLoss x).queues = s.queues := rfl
@[simp] theorem setLoss_track (s : State) (x) : (s.setLoss x).track = s.track := rfl
@[simp] theorem setLoss_sched (s : State) (x) : (s.setLoss x).sched = s.sched := rfl
@[simp] theorem setLoss_outs (s : State) (x) : (s.setLoss x).outs = s.outs := rfl
@[simp] theorem setLoss_stackers (s : State) (x) : (s.setLoss x).stackers = s.stackers := rfl
@[simp] theorem setLoss_tally (s : State) (x) : (s.setLoss x).tally = s.tally := rfl
@[simp] theorem setLoss_setup (s : State) (x) : (s.setLoss x).setup = s.setup := rfl
@[simp] theorem setLoss_link (s : State) (x) : (s.setLoss x).link = s.link := rfl
@[simp] theorem setLoss_freeIndex (s : State) (x) : (s.setLoss x).freeIndex = s.freeIndex := rfl

@[simp] theorem setQueues_pending (s : State) (x) : (s.setQueues x).pending = s.pending := rfl
@[simp] theorem setQueues_pins (s : State) (x) : (s.setQueues x).pins = s.pins := rfl
@[simp] theorem setQueues_node (s : State) (x) : (s.setQueues x).node = s.node := rfl
@[simp] theorem setQueues_unit (s : State) (x) : (s.setQueues x).unit = s.unit := rfl
@[simp] theorem setQueues_line (s : State) (x) : (s.setQueues x).line = s.line := rfl
@[simp] theorem setQueues_loss (s : State) (x) : (s.setQueues x).loss = s.loss := rfl
@[simp] theorem setQueues_queues (s : State) (x) : (s.setQueues x).queues = x := rfl
@[simp] theorem setQueues_track (s : State) (x) : (s.setQueues x).track = s.track := rfl
@[simp] theorem setQueues_sched (s : State) (x) : (s.setQueues x).sched = s.sched := rfl
@[simp] theorem setQueues_outs (s : State) (x) : (s.setQueues x).outs = s.outs := rfl
@[simp] theorem setQueues_stackers (s : State) (x) : (s.setQueues x).stackers = s.stackers := rfl
@[simp] theorem setQueues_tally (s : State) (x) : (s.setQueues x).tally = s.tally := rfl
@[simp] theorem setQueues_setup (s : State) (x) : (s.setQueues x).setup = s.setup := rfl
@[simp] theorem setQueues_link (s : State) (x) : (s.setQueues x).link = s.link := rfl
@[simp] theorem setQueues_freeIndex (s : State) (x) : (s.setQueues x).freeIndex = s.freeIndex := rfl

@[simp] theorem setTrack_pending (s : State) (x) : (s.setTrack x).pending = s.pending := rfl
@[simp] theorem setTrack_pins (s : State) (x) : (s.setTrack x).pins = s.pins := rfl
@[simp] theorem setTrack_node (s : State) (x) : (s.setTrack x).node = s.node := rfl
@[simp] theorem setTrack_unit (s : State) (x) : (s.setTrack x).unit = s.unit := rfl
@[simp] theorem setTrack_line (s : State) (x) : (s.setTrack x).line = s.line := rfl
@[simp] theorem setTrack_loss (s : State) (x) : (s.setTrack x).loss = s.loss := rfl
@[simp] theorem setTrack_queues (s : State) (x) : (s.setTrack x).queues = s.queues := rfl
@[simp] theorem setTrack_track (s : State) (x) : (s.setTrack x).track = x := rfl
@[simp] theorem setTrack_sched (s : State) (x) : (s.setTrack x).sched = s.sched := rfl
@[simp] theorem setTrack_outs (s : State) (x) : (s.setTrack x).outs = s.outs := rfl
@[simp] theorem setTrack_stackers (s : State) (x) : (s.setTrack x).stackers = s.stackers := rfl
@[simp] theorem setTrack_tally (s : State) (x) : (s.setTrack x).tally = s.tally := rfl
@[simp] theorem setTrack_setup (s : State) (x) : (s.setTrack x).setup = s.setup := rfl
@[simp] theorem setTrack_link (s : State) (x) : (s.setTrack x).link = s.link := rfl
@[simp] theorem setTrack_freeIndex (s : State) (x) : (s.setTrack x).freeIndex = s.freeIndex := rfl

@[simp] theorem setSched_pending (s : State) (x) : (s.setSched x).pending = s.pending := rfl
@[simp] theorem setSched_pins (s : State) (x) : (s.setSched x).pins = s.pins := rfl
@[simp] theorem setSched_node (s : State) (x) : (s.setSched x).node = s.node := rfl
@[simp] theorem setSched_unit (s : State) (x) : (s.setSched x).unit = s.unit := rfl
@[simp] theorem setSched_line (s : State) (x) : (s.setSched x).line = s.line := rfl
@[simp] theorem setSched_loss (s : State) (x) : (s.setSched x).loss = s.loss := rfl
@[simp] theorem setSched_queues (s : State) (x) : (s.setSched x).queues = s.queues := rfl
@[simp] theorem setSched_track (s : State) (x) : (s.setSched x).track = s.track := rfl
@[simp] theorem setSched_sched (s : State) (x) : (s.setSched x).sched = x := rfl
@[simp] theorem setSched_outs (s : State) (x) : (s.setSched x).outs = s.outs := rfl
@[simp] theorem setSched_stackers (s : State) (x) : (s.setSched x).stackers = s.stackers := rfl
@[simp] theorem setSched_tally (s : State) (x) : (s.setSched x).tally = s.tally := rfl
@[simp] theorem setSched_setup (s : State) (x) : (s.setSched x).setup = s.setup := rfl
@[simp] theorem setSched_link (s : State) (x) : (s.setSched x).link = s.link := rfl
@[simp] theorem setSched_freeIndex (s : State) (x) : (s.setSched x).freeIndex = s.freeIndex := rfl

@[simp] theorem setOuts_pending (s : State) (x) : (s.setOuts x).pending = s.pending := rfl
@[simp] theorem setOuts_pins (s : State) (x) : (s.setOuts x).pins = s.pins := rfl
@[simp] theorem setOuts_node (s : State) (x) : (s.setOuts x).node = s.node := rfl
@[simp] theorem setOuts_unit (s : State) (x) : (s.setOuts x).unit = s.unit := rfl
@[simp] theorem setOuts_line (s : State) (x) : (s.setOuts x).line = s.line := rfl
@[simp] theorem setOuts_loss (s : State) (x) : (s.setOuts x).loss = s.loss := rfl
@[simp] theorem setOuts_queues (s : State) (x) : (s.setOuts x).queues = s.queues := rfl
@[simp] theorem setOuts_track (s : State) (x) : (s.setOuts x).track = s.track := rfl
@[simp] theorem setOuts_sched (s : State) (x) : (s.setOuts x).sched = s.sched := rfl
@[simp] theorem setOuts_outs (s : State) (x) : (s.setOuts x).outs = x := rfl
@[simp] theorem setOuts_stackers (s : State) (x) : (s.setOuts x).stackers = s.stackers := rfl
@[simp] theorem setOuts_tally (s : State) (x) : (s.setOuts x).tally = s.tally := rfl
@[simp] theorem setOuts_setup (s : State) (x) : (s.setOuts x).setup = s.setup := rfl
@[simp] theorem setOuts_link (s : State) (x) : (s.setOuts x).link = s.link := rfl
@[simp] theorem setOuts_freeIndex (s : State) (x) : (s.setOuts x).freeIndex = s.freeIndex := rfl

@[simp] theorem setStackers_pending (s : State) (x) : (s.setStackers x).pending = s.pending := rfl
@[simp] theorem setStackers_pins (s : State) (x) : (s.setStackers x).pins = s.pins := rfl
@[simp] theorem setStackers_node (s : State) (x) : (s.setStackers x).node = s.node := rfl
@[simp] theorem setStackers_unit (s : State) (x) : (s.setStackers x).unit = s.unit := rfl
@[simp] theorem setStackers_line (s : State) (x) : (s.setStackers x).line = s.line := rfl
@[simp] theorem setStackers_loss (s : State) (x) : (s.setStackers x).loss = s.loss := rfl
@[simp] theorem setStackers_queues (s : State) (x) : (s.setStackers x).queues = s.queues := rfl
@[simp] theorem setStackers_track (s : State) (x) : (s.setStackers x).track = s.track := rfl
@[simp] theorem setStackers_sched (s : State) (x) : (s.setStackers x).sched = s.sched := rfl
@[simp] theorem setStackers_outs (s : State) (x) : (s.setStackers x).outs = s.outs := rfl
@[simp] theorem setStackers_stackers (s : State) (x) : (s.setStackers x).stackers = x := rfl
@[simp] theorem setStackers_tally (s : State) (x) : (s.setStackers x).tally = s.tally := rfl
@[simp] theorem setStackers_setup (s : State) (x) : (s.setStackers x).setup = s.setup := rfl
@[simp] theorem setStackers_link (s : State) (x) : (s.setStackers x).link = s.link := rfl
@[simp] theorem setStackers_freeIndex (s : State) (x) : (s.setStackers x).freeIndex = s.freeIndex := rfl

@[simp] theorem setTally_pending (s : State) (x) : (s.setTally x).pending = s.pending := rfl
@[simp] theorem setTally_pins (s : State) (x) : (s.setTally x).pins = s.pins := rfl
@[simp] theorem setTally_node (s : State) (x) : (s.setTally x).node = s.node := rfl
@[simp] theorem setTally_unit (s : State) (x) : (s.setTally x).unit = s.unit := rfl
@[simp] theorem setTally_line (s : State) (x) : (s.setTally x).line = s.line := rfl
@[simp] theorem setTally_loss (s : State) (x) : (s.setTally x).loss = s.loss := rfl
@[simp] theorem setTally_queues (s : State) (x) : (s.setTally x).queues = s.queues := rfl
@[simp] theorem setTally_track (s : State) (x) : (s.setTally x).track = s.track := rfl
@[simp] theorem setTally_sched (s : State) (x) : (s.setTally x).sched = s.sched := rfl
@[simp] theorem setTally_outs (s : State) (x) : (s.setTally x).outs = s.outs := rfl
@[simp] theorem setTally_stackers (s : State) (x) : (s.setTally x).stackers = s.stackers := rfl
@[simp] theorem setTally_tally (s : State) (x) : (s.setTally x).tally = x := rfl
@[simp] theorem setTally_setup (s : State) (x) : (s.setTally x).setup = s.setup := rfl
@[simp] theorem setTally_link (s : State) (x) : (s.setTally x).link = s.link := rfl
@[simp] theorem setTally_freeIndex (s : State) (x) : (s.setTally x).freeIndex = s.freeIndex := rfl

@[simp] theorem setSetup_pending (s : State) (x) : (s.setSetup x).pending = s.pending := rfl
@[simp] theorem setSetup_pins (s : State) (x) : (s.setSetup x).pins = s.pins := rfl
@[simp] theorem setSetup_node (s : State) (x) : (s.setSetup x).node = s.node := rfl
@[simp] theorem setSetup_unit (s : State) (x) : (s.setSetup x).unit = s.unit := rfl
@[simp] theorem setSetup_line (s : State) (x) : (s.setSetup x).line = s.line := rfl
@[simp] theorem setSetup_loss (s : State) (x) : (s.setSetup x).loss = s.loss := rfl
@[simp] theorem setSetup_queues (s : State) (x) : (s.setSetup x).queues = s.queues := rfl
@[simp] theorem setSetup_track (s : State) (x) : (s.setSetup x).track = s.track := rfl
@[simp] theorem setSetup_sched (s : State) (x) : (s.setSetup x).sched = s.sched := rfl
@[simp] theorem setSetup_outs (s : State) (x) : (s.setSetup x).outs = s.outs := rfl
@[simp] theorem setSetup_stackers (s : State) (x) : (s.setSetup x).stackers = s.stackers := rfl
@[simp] theorem setSetup_tally (s : State) (x) : (s.setSetup x).tally = s.tally := rfl
@[simp] theorem setSetup_setup (s : State) (x) : (s.setSetup x).setup = x := rfl
@[simp] theorem setSetup_link (s : State) (x) : (s.setSetup x).link = s.link := rfl
@[simp] theorem setSetup_freeIndex (s : State) (x) : (s.setSetup x).freeIndex = s.freeIndex := rfl

@[simp] theorem setLink_pending (s : State) (x) : (s.setLink x).pending = s.pending := rfl
@[simp] theorem setLink_pins (s : State) (x) : (s.setLink x).pins = s.pins := rfl
@[simp] theorem setLink_node (s : State) (x) : (s.setLink x).node = s.node := rfl
@[simp] theorem setLink_unit (s : State) (x) : (s.setLink x).unit = s.unit := rfl
@[simp] theorem setLink_line (s : State) (x) : (s.setLink x).line = s.line := rfl
@[simp] theorem setLink_loss (s : State) (x) : (s.setLink x).loss = s.loss := rfl
@[simp] theorem setLink_queues (s : State) (x) : (s.setLink x).queues = s.queues := rfl
@[simp] theorem setLink_track (s : State) (x) : (s.setLink x).track = s.track := rfl
@[simp] theorem setLink_sched (s : State) (x) : (s.setLink x).sched = s.sched := rfl
@[simp] theorem setLink_outs (s : State) (x) : (s.setLink x).outs = s.outs := rfl
@[simp] theorem setLink_stackers (s : State) (x) : (s.setLink x).stackers = s.stackers := rfl
@[simp] theorem setLink_tally (s : State) (x) : (s.setLink x).tally = s.tally := rfl
@[simp] theorem setLink_setup (s : State) (x) : (s.setLink x).setup = s.setup := rfl
@[simp] theorem setLink_link (s : State) (x) : (s.setLink x).link = x := rfl
@[simp] theorem setLink_freeIndex (s : State) (x) : (s.setLink x).freeIndex = s.freeIndex := rfl

@[simp] theorem setFreeIndex_pending (s : State) (x) : (s.setFreeIndex x).pending = s.pending := rfl
@[simp] theorem setFreeIndex_pins (s : State) (x) : (s.setFreeIndex x).pins = s.pins := rfl
@[simp] theorem setFreeIndex_node (s : State) (x) : (s.setFreeIndex x).node = s.node := rfl
@[simp] theorem setFreeIndex_unit (s : State) (x) : (s.setFreeIndex x).unit = s.unit := rfl
@[simp] theorem setFreeIndex_line (s : State) (x) : (s.setFreeIndex x).line = s.line := rfl
@[simp] theorem setFreeIndex_loss (s : State) (x) : (s.setFreeIndex x).loss = s.loss := rfl
@[simp] theorem setFreeIndex_queues (s : State) (x) : (s.setFreeIndex x).queues = s.queues := rfl
@[simp] theorem setFreeIndex_track (s : State) (x) : (s.setFreeIndex x).track = s.track := rfl
@[simp] theorem setFreeIndex_sched (s : State) (x) : (s.setFreeIndex x).sched = s.sched := rfl
@[simp] theorem setFreeIndex_outs (s : State) (x) : (s.setFreeIndex x).outs = s.outs := rfl
@[simp] theorem setFreeIndex_stackers (s : State) (x) : (s.setFreeIndex x).stackers = s.stackers := rfl
@[simp] theorem setFreeIndex_tally (s : State) (x) : (s.setFreeIndex x).tally = s.tally := rfl
@[simp] theorem setFreeIndex_setup (s : State) (x) : (s.setFreeIndex x).setup = s.setup := rfl
@[simp] theorem setFreeIndex_link (s : State) (x) : (s.setFreeIndex x).link = s.link := rfl
@[simp] theorem setFreeIndex_freeIndex (s : State) (x) : (s.setFreeIndex x).freeIndex = x := rfl

/-- Two states that agree in every field are one. -/
theorem state_ext {s u : State} (h1 : s.pending = u.pending) (h2 : s.pins = u.pins) (h3 : s.node = u.node) (h4 : s.unit = u.unit)
  (h5 : s.line = u.line) (h6 : s.loss = u.loss) (h7 : s.queues = u.queues) (h8 : s.track = u.track) (h9 : s.sched = u.sched)
  (h10 : s.outs = u.outs) (h11 : s.stackers = u.stackers) (h12 : s.tally = u.tally) (h13 : s.setup = u.setup) (h14 : s.link = u.link)
  (h15 : s.freeIndex = u.freeIndex) : s = u := by
  cases s; cases u; simp_all

/-! ## Updates of one entry, as updates of the whole field -/

@[simp] theorem setQueue_eq (s : State) (k : Lane) (q) : s.setQueue k q = s.setQueues (upd s.queues k q) := rfl
@[simp] theorem setOut_eq (s : State) (o : OutId) (r) : s.setOut o r = s.setOuts (upd s.outs o r) := rfl
@[simp] theorem setStacker_eq (s : State) (k : Lane) (st) :
    s.setStacker k st = s.setStackers (upd s.stackers k st) := rfl
@[simp] theorem setRecord_eq (s : State) (t : Tag) (r) :
    s.setRecord t r = s.setTrack { s.track with slots := upd s.track.slots t (some r) } := rfl
@[simp] theorem setCounters_eq (s : State) (k : Lane) (c) :
    s.setCounters k c = s.setTrack { s.track with counters := upd s.track.counters k c } := rfl
@[simp] theorem setEntries_eq (s : State) (es) : s.setEntries es = s.setSched { s.sched with entries := es } := rfl
@[simp] theorem setBusy_eq (s : State) (o : OutId) (p) :
    s.setBusy o p = s.setSched { s.sched with busy := upd s.sched.busy o p } := rfl
@[simp] theorem setPin_ls (s : State) (k : Lane) (b) :
    s.setPin (.ls k) b = s.setPins { s.pins with ls := upd s.pins.ls k b } := rfl
@[simp] theorem setPin_es (s : State) (k : Lane) (b) :
    s.setPin (.es k) b = s.setPins { s.pins with es := upd s.pins.es k b } := rfl
@[simp] theorem setQual_ls (s : State) (k : Lane) (q) :
    s.setQual (.ls k) q = s.setUnit { s.unit with lsQual := upd s.unit.lsQual k q } := rfl
@[simp] theorem setQual_es (s : State) (k : Lane) (q) :
    s.setQual (.es k) q = s.setUnit { s.unit with esQual := upd s.unit.esQual k q } := rfl

/-- The table is unchanged by writing what an entry holds. -/
@[simp] theorem upd_self {α : Type} {n : Nat} (v : Vector α n) (i : Fin n) : upd v i v[i.1] = v := by
  ext k h
  simp only [getElem_upd]
  split
  · subst_vars; rfl
  · rfl

theorem upd_upd {α : Type} {n : Nat} (v : Vector α n) (i : Fin n) (x y : α) : upd (upd v i x) i y = upd v i y := by
  ext k h
  simp only [getElem_upd]
  split <;> rfl

/-! ## What the reads depend on -/

section
variable {s u : State}

theorem position_congr (h : s.unit = u.unit) : s.position = u.position := by
  simp only [State.position, h]
theorem map_congr (h : s.setup = u.setup) : s.map = u.map := by
  simp only [State.map, h]
theorem lanePlan_congr (h : s.setup = u.setup) : s.lanePlan = u.lanePlan := by
  simp only [State.lanePlan, h]
theorem reportNode_congr (h : s.setup = u.setup) : s.reportNode = u.reportNode := by
  simp only [State.reportNode, h]
theorem nodeByte_congr (h : s.node = u.node) : s.nodeByte = u.nodeByte := by
  simp only [State.nodeByte, h]
theorem tableEmpty_congr (h : s.track = u.track) : s.tableEmpty = u.tableEmpty := by
  simp only [State.tableEmpty, h]
theorem inPlan_congr (h : s.setup = u.setup) (k : Lane) : s.inPlan k = u.inPlan k := by
  simp only [State.inPlan, State.lanePlan, h]
theorem enabled_congr (h : s.setup = u.setup) (k : Lane) : s.enabled k = u.enabled k := by
  simp only [State.enabled, State.inPlan, State.lanePlan, h]
theorem shelfCap_congr (h : s.setup = u.setup) (k : Lane) : s.shelfCap k = u.shelfCap k := by
  simp only [State.shelfCap, State.map, h]
theorem record_congr (h : s.track = u.track) (t : Tag) : s.record t = u.record t := by
  simp only [State.record, h]
theorem liveCount_congr (h : s.track = u.track) (k : Lane) : s.liveCount k = u.liveCount k := by
  simp only [State.liveCount, h]
theorem inboundCount_congr (h : s.track = u.track) (k : Lane) : s.inboundCount k = u.inboundCount k := by
  simp only [State.inboundCount, h]
theorem oldest_congr (h : s.track = u.track) (k : Lane) (st : RecordState) : s.oldest k st = u.oldest k st := by
  simp only [State.oldest, State.record, h]
theorem nextOfLane_congr (h : s.track = u.track) (t : Tag) (k : Lane) : s.nextOfLane t k = u.nextOfLane t k := by
  simp only [State.nextOfLane, State.record, h]
theorem entriesOwned_congr (h : s.sched = u.sched) (t : Tag) : s.entriesOwned t = u.entriesOwned t := by
  simp only [State.entriesOwned, h]
theorem outLevel_congr (h : s.outs = u.outs) (o : OutId) : s.outLevel o = u.outLevel o := by
  simp only [State.outLevel, h]
theorem jamPosition_congr (h : s.setup = u.setup) (r : ItemRecord) : s.jamPosition r = u.jamPosition r := by
  simp only [State.jamPosition, State.map, h]
theorem srdyLevel_congr (h : s.stackers = u.stackers) (k : Lane) : s.srdyLevel k = u.srdyLevel k := by
  simp only [State.srdyLevel, h]
theorem openAt_congr (h : s.setup = u.setup) (k : Lane) (r : Pos) : s.openAt k r = u.openAt k r := by
  simp only [State.openAt, State.map, h]
theorem closeAt_congr (h : s.setup = u.setup) (k : Lane) (r : Pos) : s.closeAt k r = u.closeAt k r := by
  simp only [State.closeAt, State.map, h]
theorem expiryOf_congr (h : s.setup = u.setup) (e : QueueEntry) : s.expiryOf e = u.expiryOf e := by
  simp only [State.expiryOf, State.map, h]
theorem addressable_congr (h : s.node = u.node) (src : Byte) : s.addressable src = u.addressable src := by
  simp only [State.addressable, h]
theorem reportRoom_congr (h : s.link = u.link) (n : Nat) : s.reportRoom n = u.reportRoom n := by
  simp only [State.reportRoom, h]

end

end Sys2Proof.Machine
end

