-- ==== Sys2Proof/Laws/Frames.lean ====
section
/-! SUPPORT. For each shared operation, everything it leaves as it was; what is left over is what it may change. -/

namespace Sys2Proof.Machine

/-- A fold keeps what each of its rounds keeps. -/
theorem foldl_keeps {α β : Type} (g : State → β) (f : State → α → State) (h : ∀ s a, g (f s a) = g s) (l : List α)
    (s : State) : g (l.foldl f s) = g s := by
  induction l generalizing s with
  | nil => rfl
  | cons a l ih => rw [List.foldl_cons, ih, h]

/-- What holds of both branches holds of the choice. -/
theorem ite_keeps {α : Type} {P : α → Prop} {c : Prop} [Decidable c] {a b : α} (ha : P a) (hb : P b) :
    P (if c then a else b) := by
  split <;> assumption

@[simp] theorem report_frame (s : State) (ts : List Telegram) :
    (s.report ts).pending = s.pending ∧ (s.report ts).pins = s.pins ∧ (s.report ts).node = s.node ∧
    (s.report ts).unit = s.unit ∧ (s.report ts).line = s.line ∧ (s.report ts).queues = s.queues ∧
    (s.report ts).track = s.track ∧ (s.report ts).sched = s.sched ∧ (s.report ts).outs = s.outs ∧
    (s.report ts).stackers = s.stackers ∧ (s.report ts).tally = s.tally ∧ (s.report ts).setup = s.setup ∧
    (s.report ts).freeIndex = s.freeIndex := by
  unfold State.report; split <;> simp

@[simp] theorem emit_frame (s : State) (n : Note) :
    (s.emit n).pending = s.pending ∧ (s.emit n).pins = s.pins ∧ (s.emit n).node = s.node ∧
    (s.emit n).unit = s.unit ∧ (s.emit n).line = s.line ∧ (s.emit n).queues = s.queues ∧
    (s.emit n).track = s.track ∧ (s.emit n).sched = s.sched ∧ (s.emit n).outs = s.outs ∧
    (s.emit n).stackers = s.stackers ∧ (s.emit n).tally = s.tally ∧ (s.emit n).setup = s.setup ∧
    (s.emit n).freeIndex = s.freeIndex := by
  unfold State.emit; split <;> simp

@[simp] theorem answer_frame (s : State) (src kind : Byte) (code : Code) :
    (s.answer src kind code).pending = s.pending ∧ (s.answer src kind code).pins = s.pins ∧
    (s.answer src kind code).node = s.node ∧ (s.answer src kind code).unit = s.unit ∧
    (s.answer src kind code).line = s.line ∧ (s.answer src kind code).queues = s.queues ∧
    (s.answer src kind code).track = s.track ∧ (s.answer src kind code).sched = s.sched ∧
    (s.answer src kind code).outs = s.outs ∧ (s.answer src kind code).stackers = s.stackers ∧
    (s.answer src kind code).tally = s.tally ∧ (s.answer src kind code).setup = s.setup ∧
    (s.answer src kind code).freeIndex = s.freeIndex := by
  unfold State.answer; simp

@[simp] theorem forward_frame (s : State) (t : Telegram) :
    (s.forward t).pending = s.pending ∧ (s.forward t).pins = s.pins ∧ (s.forward t).node = s.node ∧
    (s.forward t).unit = s.unit ∧ (s.forward t).line = s.line ∧ (s.forward t).loss = s.loss ∧
    (s.forward t).queues = s.queues ∧ (s.forward t).track = s.track ∧ (s.forward t).sched = s.sched ∧
    (s.forward t).outs = s.outs ∧ (s.forward t).stackers = s.stackers ∧ (s.forward t).tally = s.tally ∧
    (s.forward t).setup = s.setup ∧ (s.forward t).freeIndex = s.freeIndex := by
  unfold State.forward; split <;> simp

@[simp] theorem changeLine_frame (s : State) (l : LineState) (c : StateCause) :
    (s.changeLine l c).pending = s.pending ∧ (s.changeLine l c).pins = s.pins ∧
    (s.changeLine l c).node = s.node ∧ (s.changeLine l c).unit = s.unit ∧
    (s.changeLine l c).queues = s.queues ∧ (s.changeLine l c).track = s.track ∧
    (s.changeLine l c).sched = s.sched ∧ (s.changeLine l c).outs = s.outs ∧
    (s.changeLine l c).stackers = s.stackers ∧ (s.changeLine l c).tally = s.tally ∧
    (s.changeLine l c).setup = s.setup ∧ (s.changeLine l c).freeIndex = s.freeIndex := by
  unfold State.changeLine; simp

@[simp] theorem count_frame (s : State) (k : Lane) (c : CounterKind) :
    (s.count k c).pending = s.pending ∧ (s.count k c).pins = s.pins ∧ (s.count k c).node = s.node ∧
    (s.count k c).unit = s.unit ∧ (s.count k c).line = s.line ∧ (s.count k c).loss = s.loss ∧
    (s.count k c).queues = s.queues ∧ (s.count k c).sched = s.sched ∧ (s.count k c).outs = s.outs ∧
    (s.count k c).stackers = s.stackers ∧ (s.count k c).tally = s.tally ∧ (s.count k c).setup = s.setup ∧
    (s.count k c).link = s.link ∧ (s.count k c).freeIndex = s.freeIndex := by
  unfold State.count; simp

@[simp] theorem credit_frame (s : State) (key : Key) (a b c : Nat) :
    (s.credit key a b c).pending = s.pending ∧ (s.credit key a b c).pins = s.pins ∧
    (s.credit key a b c).node = s.node ∧ (s.credit key a b c).unit = s.unit ∧
    (s.credit key a b c).line = s.line ∧ (s.credit key a b c).loss = s.loss ∧
    (s.credit key a b c).queues = s.queues ∧ (s.credit key a b c).track = s.track ∧
    (s.credit key a b c).sched = s.sched ∧ (s.credit key a b c).outs = s.outs ∧
    (s.credit key a b c).stackers = s.stackers ∧ (s.credit key a b c).setup = s.setup ∧
    (s.credit key a b c).link = s.link ∧ (s.credit key a b c).freeIndex = s.freeIndex := by
  unfold State.credit; simp

@[simp] theorem insertEntry_frame (s : State) (e : FireEntry) :
    (s.insertEntry e).pending = s.pending ∧ (s.insertEntry e).pins = s.pins ∧ (s.insertEntry e).node = s.node ∧
    (s.insertEntry e).unit = s.unit ∧ (s.insertEntry e).line = s.line ∧ (s.insertEntry e).loss = s.loss ∧
    (s.insertEntry e).queues = s.queues ∧ (s.insertEntry e).track = s.track ∧ (s.insertEntry e).outs = s.outs ∧
    (s.insertEntry e).stackers = s.stackers ∧ (s.insertEntry e).tally = s.tally ∧
    (s.insertEntry e).setup = s.setup ∧ (s.insertEntry e).link = s.link ∧
    (s.insertEntry e).freeIndex = s.freeIndex := by
  unfold State.insertEntry; simp

@[simp] theorem bookDiverter_frame (s : State) (k : Lane) (t : Tag) (kind : FireKind) (p : Pos) :
    (s.bookDiverter k t kind p).pending = s.pending ∧ (s.bookDiverter k t kind p).pins = s.pins ∧
    (s.bookDiverter k t kind p).node = s.node ∧ (s.bookDiverter k t kind p).unit = s.unit ∧
    (s.bookDiverter k t kind p).line = s.line ∧ (s.bookDiverter k t kind p).loss = s.loss ∧
    (s.bookDiverter k t kind p).queues = s.queues ∧ (s.bookDiverter k t kind p).track = s.track ∧
    (s.bookDiverter k t kind p).outs = s.outs ∧ (s.bookDiverter k t kind p).stackers = s.stackers ∧
    (s.bookDiverter k t kind p).tally = s.tally ∧ (s.bookDiverter k t kind p).setup = s.setup ∧
    (s.bookDiverter k t kind p).link = s.link ∧ (s.bookDiverter k t kind p).freeIndex = s.freeIndex := by
  unfold State.bookDiverter; split <;> simp

@[simp] theorem cancelFolds_frame (s : State) (t : Tag) :
    (s.cancelFolds t).pending = s.pending ∧ (s.cancelFolds t).pins = s.pins ∧ (s.cancelFolds t).node = s.node ∧
    (s.cancelFolds t).unit = s.unit ∧ (s.cancelFolds t).line = s.line ∧ (s.cancelFolds t).loss = s.loss ∧
    (s.cancelFolds t).queues = s.queues ∧ (s.cancelFolds t).track = s.track ∧ (s.cancelFolds t).outs = s.outs ∧
    (s.cancelFolds t).stackers = s.stackers ∧ (s.cancelFolds t).tally = s.tally ∧
    (s.cancelFolds t).setup = s.setup ∧ (s.cancelFolds t).link = s.link ∧
    (s.cancelFolds t).freeIndex = s.freeIndex := by
  unfold State.cancelFolds; simp

@[simp] theorem cancelAll_frame (s : State) (t : Tag) :
    (s.cancelAll t).pending = s.pending ∧ (s.cancelAll t).pins = s.pins ∧ (s.cancelAll t).node = s.node ∧
    (s.cancelAll t).unit = s.unit ∧ (s.cancelAll t).line = s.line ∧ (s.cancelAll t).loss = s.loss ∧
    (s.cancelAll t).queues = s.queues ∧ (s.cancelAll t).track = s.track ∧ (s.cancelAll t).outs = s.outs ∧
    (s.cancelAll t).stackers = s.stackers ∧ (s.cancelAll t).tally = s.tally ∧ (s.cancelAll t).setup = s.setup ∧
    (s.cancelAll t).link = s.link ∧ (s.cancelAll t).freeIndex = s.freeIndex := by
  unfold State.cancelAll; simp

@[simp] theorem closeStack_frame (s : State) (k : Lane) (c : CloseCause) (p : Phase) :
    (s.closeStack k c p).pending = s.pending ∧ (s.closeStack k c p).pins = s.pins ∧
    (s.closeStack k c p).node = s.node ∧ (s.closeStack k c p).unit = s.unit ∧
    (s.closeStack k c p).line = s.line ∧ (s.closeStack k c p).queues = s.queues ∧
    (s.closeStack k c p).track = s.track ∧ (s.closeStack k c p).sched = s.sched ∧
    (s.closeStack k c p).outs = s.outs ∧ (s.closeStack k c p).setup = s.setup ∧
    (s.closeStack k c p).freeIndex = s.freeIndex := by
  simp only [State.closeStack]; split <;> simp

@[simp] theorem drainClose_frame (s : State) (k : Lane) :
    (s.drainClose k).pending = s.pending ∧ (s.drainClose k).pins = s.pins ∧ (s.drainClose k).node = s.node ∧
    (s.drainClose k).unit = s.unit ∧ (s.drainClose k).line = s.line ∧ (s.drainClose k).queues = s.queues ∧
    (s.drainClose k).track = s.track ∧ (s.drainClose k).sched = s.sched ∧ (s.drainClose k).outs = s.outs ∧
    (s.drainClose k).setup = s.setup ∧ (s.drainClose k).freeIndex = s.freeIndex := by
  simp only [State.drainClose]; split <;> simp

@[simp] theorem drainCloses_frame (s : State) :
    (s.drainCloses).pending = s.pending ∧ (s.drainCloses).pins = s.pins ∧ (s.drainCloses).node = s.node ∧
    (s.drainCloses).unit = s.unit ∧ (s.drainCloses).line = s.line ∧ (s.drainCloses).queues = s.queues ∧
    (s.drainCloses).track = s.track ∧ (s.drainCloses).sched = s.sched ∧ (s.drainCloses).outs = s.outs ∧
    (s.drainCloses).setup = s.setup ∧ (s.drainCloses).freeIndex = s.freeIndex := by
  unfold State.drainCloses
  refine ⟨?_, ?_, ?_, ?_, ?_, ?_, ?_, ?_, ?_, ?_, ?_⟩ <;> exact foldl_keeps _ _ (fun s a => by simp) _ _

@[simp] theorem passBatch_frame (s : State) (t : Tag) (r : ItemRecord) (f : Fate) :
    (s.passBatch t r f).pending = s.pending ∧ (s.passBatch t r f).pins = s.pins ∧
    (s.passBatch t r f).node = s.node ∧ (s.passBatch t r f).unit = s.unit ∧ (s.passBatch t r f).line = s.line ∧
    (s.passBatch t r f).loss = s.loss ∧ (s.passBatch t r f).queues = s.queues ∧
    (s.passBatch t r f).sched = s.sched ∧ (s.passBatch t r f).outs = s.outs ∧
    (s.passBatch t r f).stackers = s.stackers ∧ (s.passBatch t r f).tally = s.tally ∧
    (s.passBatch t r f).setup = s.setup ∧ (s.passBatch t r f).link = s.link ∧
    (s.passBatch t r f).freeIndex = s.freeIndex := by
  simp only [State.passBatch]
  repeat' split
  all_goals simp

@[simp] theorem freeSlot_frame (s : State) (t : Tag) :
    (s.freeSlot t).pending = s.pending ∧ (s.freeSlot t).pins = s.pins ∧ (s.freeSlot t).node = s.node ∧
    (s.freeSlot t).unit = s.unit ∧ (s.freeSlot t).line = s.line ∧ (s.freeSlot t).loss = s.loss ∧
    (s.freeSlot t).queues = s.queues ∧ (s.freeSlot t).sched = s.sched ∧ (s.freeSlot t).outs = s.outs ∧
    (s.freeSlot t).stackers = s.stackers ∧ (s.freeSlot t).tally = s.tally ∧ (s.freeSlot t).setup = s.setup ∧
    (s.freeSlot t).link = s.link ∧ (s.freeSlot t).freeIndex = s.freeIndex := by
  unfold State.freeSlot; simp

@[simp] theorem retire_frame (s : State) (t : Tag) (r : ItemRecord) (f : Fate) :
    (s.retire t r f).pending = s.pending ∧ (s.retire t r f).pins = s.pins ∧ (s.retire t r f).node = s.node ∧
    (s.retire t r f).unit = s.unit ∧ (s.retire t r f).line = s.line ∧ (s.retire t r f).loss = s.loss ∧
    (s.retire t r f).queues = s.queues ∧ (s.retire t r f).outs = s.outs ∧
    (s.retire t r f).stackers = s.stackers ∧ (s.retire t r f).tally = s.tally ∧
    (s.retire t r f).setup = s.setup ∧ (s.retire t r f).link = s.link ∧
    (s.retire t r f).freeIndex = s.freeIndex := by
  unfold State.retire; simp

@[simp] theorem convertRecord_frame (s : State) (k : Lane) (t : Tag) (r : ItemRecord) :
    (s.convertRecord k t r).pending = s.pending ∧ (s.convertRecord k t r).pins = s.pins ∧
    (s.convertRecord k t r).node = s.node ∧ (s.convertRecord k t r).unit = s.unit ∧
    (s.convertRecord k t r).line = s.line ∧ (s.convertRecord k t r).loss = s.loss ∧
    (s.convertRecord k t r).queues = s.queues ∧ (s.convertRecord k t r).outs = s.outs ∧
    (s.convertRecord k t r).stackers = s.stackers ∧ (s.convertRecord k t r).tally = s.tally ∧
    (s.convertRecord k t r).setup = s.setup ∧ (s.convertRecord k t r).link = s.link ∧
    (s.convertRecord k t r).freeIndex = s.freeIndex := by
  simp only [State.convertRecord]; split <;> simp

@[simp] theorem convertOne_frame (s : State) (k : Lane) (t : Tag) :
    (State.convertOne k s t).pending = s.pending ∧ (State.convertOne k s t).pins = s.pins ∧
    (State.convertOne k s t).node = s.node ∧ (State.convertOne k s t).unit = s.unit ∧
    (State.convertOne k s t).line = s.line ∧ (State.convertOne k s t).loss = s.loss ∧
    (State.convertOne k s t).queues = s.queues ∧ (State.convertOne k s t).outs = s.outs ∧
    (State.convertOne k s t).stackers = s.stackers ∧ (State.convertOne k s t).tally = s.tally ∧
    (State.convertOne k s t).setup = s.setup ∧ (State.convertOne k s t).link = s.link ∧
    (State.convertOne k s t).freeIndex = s.freeIndex := by
  simp only [State.convertOne]
  repeat' split
  all_goals simp

@[simp] theorem convertLane_frame (s : State) (k : Lane) :
    (s.convertLane k).pending = s.pending ∧ (s.convertLane k).pins = s.pins ∧ (s.convertLane k).node = s.node ∧
    (s.convertLane k).unit = s.unit ∧ (s.convertLane k).line = s.line ∧ (s.convertLane k).loss = s.loss ∧
    (s.convertLane k).queues = s.queues ∧ (s.convertLane k).outs = s.outs ∧
    (s.convertLane k).stackers = s.stackers ∧ (s.convertLane k).tally = s.tally ∧
    (s.convertLane k).setup = s.setup ∧ (s.convertLane k).link = s.link ∧
    (s.convertLane k).freeIndex = s.freeIndex := by
  unfold State.convertLane
  refine ⟨?_, ?_, ?_, ?_, ?_, ?_, ?_, ?_, ?_, ?_, ?_, ?_, ?_⟩ <;> exact foldl_keeps _ _ (fun s a => by simp) _ _

@[simp] theorem stopLane_frame (s : State) (k : Lane) (f : FaultKind) (p : Pos) :
    (s.stopLane k f p).pending = s.pending ∧ (s.stopLane k f p).pins = s.pins ∧
    (s.stopLane k f p).node = s.node ∧ (s.stopLane k f p).unit = s.unit ∧ (s.stopLane k f p).line = s.line ∧
    (s.stopLane k f p).queues = s.queues ∧ (s.stopLane k f p).outs = s.outs ∧
    (s.stopLane k f p).tally = s.tally ∧ (s.stopLane k f p).setup = s.setup ∧
    (s.stopLane k f p).freeIndex = s.freeIndex := by
  simp only [State.stopLane]; simp

@[simp] theorem jamRecord_frame (s : State) (k : Lane) (t : Tag) (r : ItemRecord) :
    (s.jamRecord k t r).pending = s.pending ∧ (s.jamRecord k t r).pins = s.pins ∧
    (s.jamRecord k t r).node = s.node ∧ (s.jamRecord k t r).unit = s.unit ∧ (s.jamRecord k t r).line = s.line ∧
    (s.jamRecord k t r).queues = s.queues ∧ (s.jamRecord k t r).outs = s.outs ∧
    (s.jamRecord k t r).setup = s.setup ∧ (s.jamRecord k t r).freeIndex = s.freeIndex := by
  simp only [State.jamRecord]; simp

@[simp] theorem jamOverdue_frame (n : Nat) (k : Lane) (s : State) :
    (State.jamOverdue n k s).pending = s.pending ∧ (State.jamOverdue n k s).pins = s.pins ∧
    (State.jamOverdue n k s).node = s.node ∧ (State.jamOverdue n k s).unit = s.unit ∧
    (State.jamOverdue n k s).line = s.line ∧ (State.jamOverdue n k s).queues = s.queues ∧
    (State.jamOverdue n k s).outs = s.outs ∧ (State.jamOverdue n k s).setup = s.setup ∧
    (State.jamOverdue n k s).freeIndex = s.freeIndex := by
  induction n generalizing s with
  | zero => simp [State.jamOverdue]
  | succ n ih =>
    simp only [State.jamOverdue]
    repeat' split
    all_goals simp [ih]

@[simp] theorem passJamWait_frame (s : State) (k : Lane) :
    (s.passJamWait k).pending = s.pending ∧ (s.passJamWait k).pins = s.pins ∧ (s.passJamWait k).node = s.node ∧
    (s.passJamWait k).unit = s.unit ∧ (s.passJamWait k).line = s.line ∧ (s.passJamWait k).queues = s.queues ∧
    (s.passJamWait k).outs = s.outs ∧ (s.passJamWait k).setup = s.setup ∧
    (s.passJamWait k).freeIndex = s.freeIndex := by
  unfold State.passJamWait; simp

@[simp] theorem passJamWaitFrom_frame (s : State) (k : Lane) (old : Option Tag) :
    (s.passJamWaitFrom k old).pending = s.pending ∧ (s.passJamWaitFrom k old).pins = s.pins ∧
    (s.passJamWaitFrom k old).node = s.node ∧ (s.passJamWaitFrom k old).unit = s.unit ∧
    (s.passJamWaitFrom k old).line = s.line ∧ (s.passJamWaitFrom k old).queues = s.queues ∧
    (s.passJamWaitFrom k old).outs = s.outs ∧ (s.passJamWaitFrom k old).setup = s.setup ∧
    (s.passJamWaitFrom k old).freeIndex = s.freeIndex := by
  unfold State.passJamWaitFrom; split <;> simp

@[simp] theorem raiseFault_frame (s : State) (k : Lane) (f : FaultKind) (p : Pos) :
    (s.raiseFault k f p).pending = s.pending ∧ (s.raiseFault k f p).pins = s.pins ∧
    (s.raiseFault k f p).node = s.node ∧ (s.raiseFault k f p).unit = s.unit ∧
    (s.raiseFault k f p).line = s.line ∧ (s.raiseFault k f p).queues = s.queues ∧
    (s.raiseFault k f p).outs = s.outs ∧ (s.raiseFault k f p).setup = s.setup ∧
    (s.raiseFault k f p).freeIndex = s.freeIndex := by
  unfold State.raiseFault; simp

@[simp] theorem toStack_frame (s : State) (k : Lane) (t : Tag) (r : ItemRecord) :
    (s.toStack k t r).pending = s.pending ∧ (s.toStack k t r).pins = s.pins ∧ (s.toStack k t r).node = s.node ∧
    (s.toStack k t r).unit = s.unit ∧ (s.toStack k t r).line = s.line ∧ (s.toStack k t r).queues = s.queues ∧
    (s.toStack k t r).outs = s.outs ∧ (s.toStack k t r).setup = s.setup ∧
    (s.toStack k t r).freeIndex = s.freeIndex := by
  unfold State.toStack; simp

@[simp] theorem releaseOutputs_frame (s : State) :
    (s.releaseOutputs).pending = s.pending ∧ (s.releaseOutputs).pins = s.pins ∧
    (s.releaseOutputs).node = s.node ∧ (s.releaseOutputs).unit = s.unit ∧ (s.releaseOutputs).line = s.line ∧
    (s.releaseOutputs).loss = s.loss ∧ (s.releaseOutputs).queues = s.queues ∧
    (s.releaseOutputs).track = s.track ∧ (s.releaseOutputs).sched = s.sched ∧
    (s.releaseOutputs).stackers = s.stackers ∧ (s.releaseOutputs).tally = s.tally ∧
    (s.releaseOutputs).setup = s.setup ∧ (s.releaseOutputs).link = s.link ∧
    (s.releaseOutputs).freeIndex = s.freeIndex := by
  unfold State.releaseOutputs; simp

@[simp] theorem emitLost_frame (k : Lane) (c : LostCause) (s : State) (e : QueueEntry) :
    (State.emitLost k c s e).pending = s.pending ∧ (State.emitLost k c s e).pins = s.pins ∧
    (State.emitLost k c s e).node = s.node ∧ (State.emitLost k c s e).unit = s.unit ∧
    (State.emitLost k c s e).line = s.line ∧ (State.emitLost k c s e).queues = s.queues ∧
    (State.emitLost k c s e).track = s.track ∧ (State.emitLost k c s e).sched = s.sched ∧
    (State.emitLost k c s e).outs = s.outs ∧ (State.emitLost k c s e).stackers = s.stackers ∧
    (State.emitLost k c s e).tally = s.tally ∧ (State.emitLost k c s e).setup = s.setup ∧
    (State.emitLost k c s e).freeIndex = s.freeIndex := by
  unfold State.emitLost; simp

@[simp] theorem emitLosts_frame (k : Lane) (c : LostCause) (l : List QueueEntry) (s : State) :
    (l.foldl (State.emitLost k c) s).pending = s.pending ∧ (l.foldl (State.emitLost k c) s).pins = s.pins ∧
    (l.foldl (State.emitLost k c) s).node = s.node ∧ (l.foldl (State.emitLost k c) s).unit = s.unit ∧
    (l.foldl (State.emitLost k c) s).line = s.line ∧ (l.foldl (State.emitLost k c) s).queues = s.queues ∧
    (l.foldl (State.emitLost k c) s).track = s.track ∧ (l.foldl (State.emitLost k c) s).sched = s.sched ∧
    (l.foldl (State.emitLost k c) s).outs = s.outs ∧ (l.foldl (State.emitLost k c) s).stackers = s.stackers ∧
    (l.foldl (State.emitLost k c) s).tally = s.tally ∧ (l.foldl (State.emitLost k c) s).setup = s.setup ∧
    (l.foldl (State.emitLost k c) s).freeIndex = s.freeIndex := by
  refine ⟨?_, ?_, ?_, ?_, ?_, ?_, ?_, ?_, ?_, ?_, ?_, ?_, ?_⟩ <;> exact foldl_keeps _ _ (fun s a => by simp) _ _

@[simp] theorem expireHeads_frame (s : State) (k : Lane) :
    (s.expireHeads k).pending = s.pending ∧ (s.expireHeads k).pins = s.pins ∧ (s.expireHeads k).node = s.node ∧
    (s.expireHeads k).unit = s.unit ∧ (s.expireHeads k).line = s.line ∧ (s.expireHeads k).track = s.track ∧
    (s.expireHeads k).sched = s.sched ∧ (s.expireHeads k).outs = s.outs ∧
    (s.expireHeads k).stackers = s.stackers ∧ (s.expireHeads k).tally = s.tally ∧
    (s.expireHeads k).setup = s.setup ∧ (s.expireHeads k).freeIndex = s.freeIndex := by
  simp only [State.expireHeads]; simp

@[simp] theorem refuseEntry_frame (s : State) (c : LostCause) (kd : EntryKind) (p : List Byte) :
    (s.refuseEntry c kd p).pending = s.pending ∧ (s.refuseEntry c kd p).pins = s.pins ∧
    (s.refuseEntry c kd p).node = s.node ∧ (s.refuseEntry c kd p).unit = s.unit ∧
    (s.refuseEntry c kd p).line = s.line ∧ (s.refuseEntry c kd p).queues = s.queues ∧
    (s.refuseEntry c kd p).track = s.track ∧ (s.refuseEntry c kd p).sched = s.sched ∧
    (s.refuseEntry c kd p).outs = s.outs ∧ (s.refuseEntry c kd p).stackers = s.stackers ∧
    (s.refuseEntry c kd p).tally = s.tally ∧ (s.refuseEntry c kd p).setup = s.setup ∧
    (s.refuseEntry c kd p).freeIndex = s.freeIndex := by
  unfold State.refuseEntry; split <;> simp

@[simp] theorem takeEntry_frame (s : State) (kd : EntryKind) (p : List Byte) :
    (s.takeEntry kd p).pending = s.pending ∧ (s.takeEntry kd p).pins = s.pins ∧
    (s.takeEntry kd p).node = s.node ∧ (s.takeEntry kd p).unit = s.unit ∧ (s.takeEntry kd p).line = s.line ∧
    (s.takeEntry kd p).track = s.track ∧ (s.takeEntry kd p).sched = s.sched ∧
    (s.takeEntry kd p).outs = s.outs ∧ (s.takeEntry kd p).stackers = s.stackers ∧
    (s.takeEntry kd p).tally = s.tally ∧ (s.takeEntry kd p).setup = s.setup ∧
    (s.takeEntry kd p).freeIndex = s.freeIndex := by
  simp only [State.takeEntry]
  repeat' split
  all_goals simp

@[simp] theorem consumeUntracked_frame (s : State) (k : Lane) :
    (s.consumeUntracked k).pending = s.pending ∧ (s.consumeUntracked k).pins = s.pins ∧
    (s.consumeUntracked k).node = s.node ∧ (s.consumeUntracked k).unit = s.unit ∧
    (s.consumeUntracked k).line = s.line ∧ (s.consumeUntracked k).track = s.track ∧
    (s.consumeUntracked k).sched = s.sched ∧ (s.consumeUntracked k).outs = s.outs ∧
    (s.consumeUntracked k).stackers = s.stackers ∧ (s.consumeUntracked k).tally = s.tally ∧
    (s.consumeUntracked k).setup = s.setup ∧ (s.consumeUntracked k).freeIndex = s.freeIndex := by
  simp only [State.consumeUntracked]; simp [-List.foldl_append]

@[simp] theorem drainQueue_frame (s : State) (k : Lane) :
    (s.drainQueue k).pending = s.pending ∧ (s.drainQueue k).pins = s.pins ∧ (s.drainQueue k).node = s.node ∧
    (s.drainQueue k).unit = s.unit ∧ (s.drainQueue k).line = s.line ∧ (s.drainQueue k).track = s.track ∧
    (s.drainQueue k).sched = s.sched ∧ (s.drainQueue k).outs = s.outs ∧
    (s.drainQueue k).stackers = s.stackers ∧ (s.drainQueue k).tally = s.tally ∧
    (s.drainQueue k).setup = s.setup ∧ (s.drainQueue k).freeIndex = s.freeIndex := by
  simp only [State.drainQueue]; simp

@[simp] theorem drainQueues_frame (s : State) :
    (s.drainQueues).pending = s.pending ∧ (s.drainQueues).pins = s.pins ∧ (s.drainQueues).node = s.node ∧
    (s.drainQueues).unit = s.unit ∧ (s.drainQueues).line = s.line ∧ (s.drainQueues).track = s.track ∧
    (s.drainQueues).sched = s.sched ∧ (s.drainQueues).outs = s.outs ∧ (s.drainQueues).stackers = s.stackers ∧
    (s.drainQueues).tally = s.tally ∧ (s.drainQueues).setup = s.setup ∧ (s.drainQueues).freeIndex = s.freeIndex := by
  unfold State.drainQueues
  refine ⟨?_, ?_, ?_, ?_, ?_, ?_, ?_, ?_, ?_, ?_, ?_, ?_⟩ <;> exact foldl_keeps _ _ (fun s a => by simp) _ _

@[simp] theorem addRecord_frame (s : State) (t : Tag) (r : ItemRecord) :
    (s.addRecord t r).pending = s.pending ∧ (s.addRecord t r).pins = s.pins ∧ (s.addRecord t r).node = s.node ∧
    (s.addRecord t r).unit = s.unit ∧ (s.addRecord t r).line = s.line ∧ (s.addRecord t r).loss = s.loss ∧
    (s.addRecord t r).queues = s.queues ∧ (s.addRecord t r).sched = s.sched ∧ (s.addRecord t r).outs = s.outs ∧
    (s.addRecord t r).stackers = s.stackers ∧ (s.addRecord t r).tally = s.tally ∧
    (s.addRecord t r).setup = s.setup ∧ (s.addRecord t r).link = s.link ∧
    (s.addRecord t r).freeIndex = s.freeIndex := by
  unfold State.addRecord; simp

@[simp] theorem bookBound_frame (s : State) (k : Lane) (t : Tag) (r : ItemRecord) :
    (s.bookBound k t r).pending = s.pending ∧ (s.bookBound k t r).pins = s.pins ∧
    (s.bookBound k t r).node = s.node ∧ (s.bookBound k t r).unit = s.unit ∧ (s.bookBound k t r).line = s.line ∧
    (s.bookBound k t r).loss = s.loss ∧ (s.bookBound k t r).queues = s.queues ∧
    (s.bookBound k t r).track = s.track ∧ (s.bookBound k t r).outs = s.outs ∧
    (s.bookBound k t r).stackers = s.stackers ∧ (s.bookBound k t r).tally = s.tally ∧
    (s.bookBound k t r).setup = s.setup ∧ (s.bookBound k t r).link = s.link ∧
    (s.bookBound k t r).freeIndex = s.freeIndex := by
  unfold State.bookBound; split <;> simp

@[simp] theorem makeRecord_frame (s : State) (k : Lane) (p : Pos) (t : Tag) :
    (s.makeRecord k p t).pending = s.pending ∧ (s.makeRecord k p t).pins = s.pins ∧
    (s.makeRecord k p t).node = s.node ∧ (s.makeRecord k p t).unit = s.unit ∧
    (s.makeRecord k p t).line = s.line ∧ (s.makeRecord k p t).outs = s.outs ∧
    (s.makeRecord k p t).stackers = s.stackers ∧ (s.makeRecord k p t).tally = s.tally ∧
    (s.makeRecord k p t).setup = s.setup ∧ (s.makeRecord k p t).freeIndex = s.freeIndex := by
  simp only [State.makeRecord]; simp

@[simp] theorem leadingEdge_frame (s : State) (k : Lane) (p : Pos) :
    (s.leadingEdge k p).pending = s.pending ∧ (s.leadingEdge k p).pins = s.pins ∧
    (s.leadingEdge k p).node = s.node ∧ (s.leadingEdge k p).unit = s.unit ∧ (s.leadingEdge k p).line = s.line ∧
    (s.leadingEdge k p).outs = s.outs ∧ (s.leadingEdge k p).setup = s.setup ∧
    (s.leadingEdge k p).freeIndex = s.freeIndex := by
  unfold State.leadingEdge; split <;> simp

@[simp] theorem insertEntries_frame (es : List FireEntry) (s : State) :
    (es.foldl State.insertEntry s).pending = s.pending ∧ (es.foldl State.insertEntry s).pins = s.pins ∧
    (es.foldl State.insertEntry s).node = s.node ∧ (es.foldl State.insertEntry s).unit = s.unit ∧
    (es.foldl State.insertEntry s).line = s.line ∧ (es.foldl State.insertEntry s).loss = s.loss ∧
    (es.foldl State.insertEntry s).queues = s.queues ∧ (es.foldl State.insertEntry s).track = s.track ∧
    (es.foldl State.insertEntry s).outs = s.outs ∧ (es.foldl State.insertEntry s).stackers = s.stackers ∧
    (es.foldl State.insertEntry s).tally = s.tally ∧ (es.foldl State.insertEntry s).setup = s.setup ∧
    (es.foldl State.insertEntry s).link = s.link ∧ (es.foldl State.insertEntry s).freeIndex = s.freeIndex := by
  refine ⟨?_, ?_, ?_, ?_, ?_, ?_, ?_, ?_, ?_, ?_, ?_, ?_, ?_, ?_⟩ <;> exact foldl_keeps _ _ (fun s a => by simp) _ _

@[simp] theorem divertRecord_frame (s : State) (k : Lane) (t : Tag) (r : ItemRecord) (p : Pos) :
    (s.divertRecord k t r p).pending = s.pending ∧ (s.divertRecord k t r p).pins = s.pins ∧
    (s.divertRecord k t r p).node = s.node ∧ (s.divertRecord k t r p).unit = s.unit ∧
    (s.divertRecord k t r p).line = s.line ∧ (s.divertRecord k t r p).loss = s.loss ∧
    (s.divertRecord k t r p).queues = s.queues ∧ (s.divertRecord k t r p).outs = s.outs ∧
    (s.divertRecord k t r p).stackers = s.stackers ∧ (s.divertRecord k t r p).tally = s.tally ∧
    (s.divertRecord k t r p).setup = s.setup ∧ (s.divertRecord k t r p).link = s.link ∧
    (s.divertRecord k t r p).freeIndex = s.freeIndex := by
  unfold State.divertRecord; simp

@[simp] theorem rejectFold_frame (s : State) (k : Lane) (t : Tag) (r : ItemRecord) (p : Pos) (st : List FoldStep) (c : Reason) :
    (s.rejectFold k t r p st c).pending = s.pending ∧ (s.rejectFold k t r p st c).pins = s.pins ∧
    (s.rejectFold k t r p st c).node = s.node ∧ (s.rejectFold k t r p st c).unit = s.unit ∧
    (s.rejectFold k t r p st c).line = s.line ∧ (s.rejectFold k t r p st c).loss = s.loss ∧
    (s.rejectFold k t r p st c).queues = s.queues ∧ (s.rejectFold k t r p st c).outs = s.outs ∧
    (s.rejectFold k t r p st c).stackers = s.stackers ∧ (s.rejectFold k t r p st c).tally = s.tally ∧
    (s.rejectFold k t r p st c).setup = s.setup ∧ (s.rejectFold k t r p st c).link = s.link ∧
    (s.rejectFold k t r p st c).freeIndex = s.freeIndex := by
  unfold State.rejectFold; simp

@[simp] theorem foldRecord_frame (s : State) (k : Lane) (t : Tag) (r : ItemRecord) (n : Nat) (p : Pos) :
    (s.foldRecord k t r n p).pending = s.pending ∧ (s.foldRecord k t r n p).pins = s.pins ∧
    (s.foldRecord k t r n p).node = s.node ∧ (s.foldRecord k t r n p).unit = s.unit ∧
    (s.foldRecord k t r n p).line = s.line ∧ (s.foldRecord k t r n p).loss = s.loss ∧
    (s.foldRecord k t r n p).queues = s.queues ∧ (s.foldRecord k t r n p).outs = s.outs ∧
    (s.foldRecord k t r n p).stackers = s.stackers ∧ (s.foldRecord k t r n p).tally = s.tally ∧
    (s.foldRecord k t r n p).setup = s.setup ∧ (s.foldRecord k t r n p).link = s.link ∧
    (s.foldRecord k t r n p).freeIndex = s.freeIndex := by
  simp only [State.foldRecord]
  split
  · simp
  split
  · simp
  split
  · simp
  rename_i s' h
  obtain ⟨es, -, hr⟩ := Option.bind_eq_some_iff.mp h
  unfold State.requestFolds at hr
  split at hr
  · simp only [Option.some.injEq] at hr
    subst hr
    simp
  · simp at hr

@[simp] theorem divertConfirmed_frame (s : State) (k : Lane) (t : Tag) (r : ItemRecord) (p : Pos) :
    (s.divertConfirmed k t r p).pending = s.pending ∧ (s.divertConfirmed k t r p).pins = s.pins ∧
    (s.divertConfirmed k t r p).node = s.node ∧ (s.divertConfirmed k t r p).unit = s.unit ∧
    (s.divertConfirmed k t r p).line = s.line ∧ (s.divertConfirmed k t r p).loss = s.loss ∧
    (s.divertConfirmed k t r p).queues = s.queues ∧ (s.divertConfirmed k t r p).outs = s.outs ∧
    (s.divertConfirmed k t r p).stackers = s.stackers ∧ (s.divertConfirmed k t r p).tally = s.tally ∧
    (s.divertConfirmed k t r p).setup = s.setup ∧ (s.divertConfirmed k t r p).link = s.link ∧
    (s.divertConfirmed k t r p).freeIndex = s.freeIndex := by
  unfold State.divertConfirmed; simp

@[simp] theorem settleConfirmed_frame (s : State) (k : Lane) (t : Tag) (r : ItemRecord) (n : Nat) (p : Pos) :
    (s.settleConfirmed k t r n p).pending = s.pending ∧ (s.settleConfirmed k t r n p).pins = s.pins ∧
    (s.settleConfirmed k t r n p).node = s.node ∧ (s.settleConfirmed k t r n p).unit = s.unit ∧
    (s.settleConfirmed k t r n p).line = s.line ∧ (s.settleConfirmed k t r n p).queues = s.queues ∧
    (s.settleConfirmed k t r n p).outs = s.outs ∧ (s.settleConfirmed k t r n p).setup = s.setup ∧
    (s.settleConfirmed k t r n p).freeIndex = s.freeIndex := by
  simp only [State.settleConfirmed]
  repeat' split
  all_goals simp

@[simp] theorem trailingEdge_frame (s : State) (k : Lane) (p : Pos) :
    (s.trailingEdge k p).pending = s.pending ∧ (s.trailingEdge k p).pins = s.pins ∧
    (s.trailingEdge k p).node = s.node ∧ (s.trailingEdge k p).unit = s.unit ∧
    (s.trailingEdge k p).line = s.line ∧ (s.trailingEdge k p).queues = s.queues ∧
    (s.trailingEdge k p).outs = s.outs ∧ (s.trailingEdge k p).setup = s.setup ∧
    (s.trailingEdge k p).freeIndex = s.freeIndex := by
  simp only [State.trailingEdge]
  repeat' split
  all_goals simp

@[simp] theorem meetOverlength_frame (s : State) (t : Tag) (r : ItemRecord) :
    (s.meetOverlength t r).pending = s.pending ∧ (s.meetOverlength t r).pins = s.pins ∧
    (s.meetOverlength t r).node = s.node ∧ (s.meetOverlength t r).unit = s.unit ∧
    (s.meetOverlength t r).line = s.line ∧ (s.meetOverlength t r).loss = s.loss ∧
    (s.meetOverlength t r).queues = s.queues ∧ (s.meetOverlength t r).outs = s.outs ∧
    (s.meetOverlength t r).stackers = s.stackers ∧ (s.meetOverlength t r).tally = s.tally ∧
    (s.meetOverlength t r).setup = s.setup ∧ (s.meetOverlength t r).link = s.link ∧
    (s.meetOverlength t r).freeIndex = s.freeIndex := by
  simp only [State.meetOverlength]; split <;> simp

@[simp] theorem overlength_frame (s : State) (t : Tag) :
    (s.overlength t).pending = s.pending ∧ (s.overlength t).pins = s.pins ∧ (s.overlength t).node = s.node ∧
    (s.overlength t).unit = s.unit ∧ (s.overlength t).line = s.line ∧ (s.overlength t).loss = s.loss ∧
    (s.overlength t).queues = s.queues ∧ (s.overlength t).outs = s.outs ∧
    (s.overlength t).stackers = s.stackers ∧ (s.overlength t).tally = s.tally ∧
    (s.overlength t).setup = s.setup ∧ (s.overlength t).link = s.link ∧
    (s.overlength t).freeIndex = s.freeIndex := by
  simp only [State.overlength]
  repeat' split
  all_goals simp

@[simp] theorem jam_frame (s : State) (k : Lane) :
    (s.jam k).pending = s.pending ∧ (s.jam k).pins = s.pins ∧ (s.jam k).node = s.node ∧
    (s.jam k).unit = s.unit ∧ (s.jam k).line = s.line ∧ (s.jam k).queues = s.queues ∧ (s.jam k).outs = s.outs ∧
    (s.jam k).setup = s.setup ∧ (s.jam k).freeIndex = s.freeIndex := by
  unfold State.jam; split <;> simp

@[simp] theorem dropEntry_frame (s : State) (e : FireEntry) :
    (s.dropEntry e).pending = s.pending ∧ (s.dropEntry e).pins = s.pins ∧ (s.dropEntry e).node = s.node ∧
    (s.dropEntry e).unit = s.unit ∧ (s.dropEntry e).line = s.line ∧ (s.dropEntry e).loss = s.loss ∧
    (s.dropEntry e).queues = s.queues ∧ (s.dropEntry e).track = s.track ∧ (s.dropEntry e).outs = s.outs ∧
    (s.dropEntry e).stackers = s.stackers ∧ (s.dropEntry e).tally = s.tally ∧ (s.dropEntry e).setup = s.setup ∧
    (s.dropEntry e).link = s.link ∧ (s.dropEntry e).freeIndex = s.freeIndex := by
  unfold State.dropEntry; simp

@[simp] theorem stepFired_frame (s : State) (t : Tag) (r : ItemRecord) :
    (s.stepFired t r).pending = s.pending ∧ (s.stepFired t r).pins = s.pins ∧ (s.stepFired t r).node = s.node ∧
    (s.stepFired t r).unit = s.unit ∧ (s.stepFired t r).line = s.line ∧ (s.stepFired t r).queues = s.queues ∧
    (s.stepFired t r).outs = s.outs ∧ (s.stepFired t r).setup = s.setup ∧
    (s.stepFired t r).freeIndex = s.freeIndex := by
  simp only [State.stepFired]; split <;> simp

@[simp] theorem fireRecord_frame (s : State) (t : Tag) (j : StepNo) :
    (s.fireRecord t j).pending = s.pending ∧ (s.fireRecord t j).pins = s.pins ∧
    (s.fireRecord t j).node = s.node ∧ (s.fireRecord t j).unit = s.unit ∧ (s.fireRecord t j).line = s.line ∧
    (s.fireRecord t j).queues = s.queues ∧ (s.fireRecord t j).outs = s.outs ∧
    (s.fireRecord t j).setup = s.setup ∧ (s.fireRecord t j).freeIndex = s.freeIndex := by
  simp only [State.fireRecord]
  repeat' split
  all_goals simp

@[simp] theorem fireFold_frame (s : State) (e : FireEntry) (j : StepNo) :
    (s.fireFold e j).pending = s.pending ∧ (s.fireFold e j).pins = s.pins ∧ (s.fireFold e j).node = s.node ∧
    (s.fireFold e j).unit = s.unit ∧ (s.fireFold e j).line = s.line ∧ (s.fireFold e j).queues = s.queues ∧
    (s.fireFold e j).setup = s.setup ∧ (s.fireFold e j).freeIndex = s.freeIndex := by
  unfold State.fireFold; simp

@[simp] theorem fireOpen_frame (s : State) (e : FireEntry) :
    (s.fireOpen e).pending = s.pending ∧ (s.fireOpen e).pins = s.pins ∧ (s.fireOpen e).node = s.node ∧
    (s.fireOpen e).unit = s.unit ∧ (s.fireOpen e).line = s.line ∧ (s.fireOpen e).loss = s.loss ∧
    (s.fireOpen e).queues = s.queues ∧ (s.fireOpen e).track = s.track ∧ (s.fireOpen e).stackers = s.stackers ∧
    (s.fireOpen e).tally = s.tally ∧ (s.fireOpen e).setup = s.setup ∧ (s.fireOpen e).link = s.link ∧
    (s.fireOpen e).freeIndex = s.freeIndex := by
  unfold State.fireOpen; simp

@[simp] theorem rejectRecord_frame (s : State) (t : Tag) (r : ItemRecord) :
    (s.rejectRecord t r).pending = s.pending ∧ (s.rejectRecord t r).pins = s.pins ∧
    (s.rejectRecord t r).node = s.node ∧ (s.rejectRecord t r).unit = s.unit ∧
    (s.rejectRecord t r).line = s.line ∧ (s.rejectRecord t r).queues = s.queues ∧
    (s.rejectRecord t r).outs = s.outs ∧ (s.rejectRecord t r).setup = s.setup ∧
    (s.rejectRecord t r).freeIndex = s.freeIndex := by
  unfold State.rejectRecord; simp

@[simp] theorem fireClose_frame (s : State) (e : FireEntry) :
    (s.fireClose e).pending = s.pending ∧ (s.fireClose e).pins = s.pins ∧ (s.fireClose e).node = s.node ∧
    (s.fireClose e).unit = s.unit ∧ (s.fireClose e).line = s.line ∧ (s.fireClose e).queues = s.queues ∧
    (s.fireClose e).setup = s.setup ∧ (s.fireClose e).freeIndex = s.freeIndex := by
  simp only [State.fireClose]
  repeat' split
  all_goals simp

@[simp] theorem fire_frame (s : State) (e : FireEntry) :
    (s.fire e).pending = s.pending ∧ (s.fire e).pins = s.pins ∧ (s.fire e).node = s.node ∧
    (s.fire e).unit = s.unit ∧ (s.fire e).line = s.line ∧ (s.fire e).queues = s.queues ∧
    (s.fire e).setup = s.setup ∧ (s.fire e).freeIndex = s.freeIndex := by
  unfold State.fire; split <;> simp

@[simp] theorem fireDue_frame (s : State) (t : Tag) (kd : FireKind) :
    (s.fireDue t kd).pending = s.pending ∧ (s.fireDue t kd).pins = s.pins ∧ (s.fireDue t kd).node = s.node ∧
    (s.fireDue t kd).unit = s.unit ∧ (s.fireDue t kd).line = s.line ∧ (s.fireDue t kd).queues = s.queues ∧
    (s.fireDue t kd).setup = s.setup ∧ (s.fireDue t kd).freeIndex = s.freeIndex := by
  unfold State.fireDue; split <;> simp

@[simp] theorem busyReached_frame (s : State) (o : OutId) :
    (s.busyReached o).pending = s.pending ∧ (s.busyReached o).pins = s.pins ∧ (s.busyReached o).node = s.node ∧
    (s.busyReached o).unit = s.unit ∧ (s.busyReached o).line = s.line ∧ (s.busyReached o).loss = s.loss ∧
    (s.busyReached o).queues = s.queues ∧ (s.busyReached o).track = s.track ∧ (s.busyReached o).outs = s.outs ∧
    (s.busyReached o).stackers = s.stackers ∧ (s.busyReached o).tally = s.tally ∧
    (s.busyReached o).setup = s.setup ∧ (s.busyReached o).link = s.link ∧
    (s.busyReached o).freeIndex = s.freeIndex := by
  unfold State.busyReached; split <;> simp

@[simp] theorem expireShot_frame (s : State) (o : OutId) :
    (s.expireShot o).pending = s.pending ∧ (s.expireShot o).pins = s.pins ∧ (s.expireShot o).node = s.node ∧
    (s.expireShot o).unit = s.unit ∧ (s.expireShot o).line = s.line ∧ (s.expireShot o).loss = s.loss ∧
    (s.expireShot o).queues = s.queues ∧ (s.expireShot o).track = s.track ∧ (s.expireShot o).sched = s.sched ∧
    (s.expireShot o).stackers = s.stackers ∧ (s.expireShot o).tally = s.tally ∧
    (s.expireShot o).setup = s.setup ∧ (s.expireShot o).link = s.link ∧
    (s.expireShot o).freeIndex = s.freeIndex := by
  unfold State.expireShot; split <;> simp

@[simp] theorem forceOutput_frame (s : State) (src b : Byte) (op : ForceOp) :
    (s.forceOutput src b op).pending = s.pending ∧ (s.forceOutput src b op).pins = s.pins ∧
    (s.forceOutput src b op).node = s.node ∧ (s.forceOutput src b op).unit = s.unit ∧
    (s.forceOutput src b op).line = s.line ∧ (s.forceOutput src b op).queues = s.queues ∧
    (s.forceOutput src b op).track = s.track ∧ (s.forceOutput src b op).sched = s.sched ∧
    (s.forceOutput src b op).stackers = s.stackers ∧ (s.forceOutput src b op).tally = s.tally ∧
    (s.forceOutput src b op).setup = s.setup ∧ (s.forceOutput src b op).freeIndex = s.freeIndex := by
  simp only [State.forceOutput]
  repeat' split
  all_goals simp

@[simp] theorem shelfFault_frame (s : State) (k : Lane) (f : FaultKind) (p : Pos) :
    (s.shelfFault k f p).pending = s.pending ∧ (s.shelfFault k f p).pins = s.pins ∧
    (s.shelfFault k f p).node = s.node ∧ (s.shelfFault k f p).unit = s.unit ∧
    (s.shelfFault k f p).line = s.line ∧ (s.shelfFault k f p).queues = s.queues ∧
    (s.shelfFault k f p).outs = s.outs ∧ (s.shelfFault k f p).setup = s.setup ∧
    (s.shelfFault k f p).freeIndex = s.freeIndex := by
  unfold State.shelfFault; simp

@[simp] theorem shelveArrival_frame (s : State) (k : Lane) (a : Arrival) (p : Pos) :
    (s.shelveArrival k a p).pending = s.pending ∧ (s.shelveArrival k a p).pins = s.pins ∧
    (s.shelveArrival k a p).node = s.node ∧ (s.shelveArrival k a p).unit = s.unit ∧
    (s.shelveArrival k a p).line = s.line ∧ (s.shelveArrival k a p).queues = s.queues ∧
    (s.shelveArrival k a p).outs = s.outs ∧ (s.shelveArrival k a p).setup = s.setup ∧
    (s.shelveArrival k a p).freeIndex = s.freeIndex := by
  simp only [State.shelveArrival]
  repeat' split
  all_goals simp

@[simp] theorem openStack_frame (s : State) (k : Lane) (a : Arrival) :
    (s.openStack k a).pending = s.pending ∧ (s.openStack k a).pins = s.pins ∧ (s.openStack k a).node = s.node ∧
    (s.openStack k a).unit = s.unit ∧ (s.openStack k a).line = s.line ∧ (s.openStack k a).loss = s.loss ∧
    (s.openStack k a).queues = s.queues ∧ (s.openStack k a).track = s.track ∧
    (s.openStack k a).sched = s.sched ∧ (s.openStack k a).outs = s.outs ∧ (s.openStack k a).tally = s.tally ∧
    (s.openStack k a).setup = s.setup ∧ (s.openStack k a).link = s.link ∧
    (s.openStack k a).freeIndex = s.freeIndex := by
  simp only [State.openStack]; simp

@[simp] theorem addCollecting_frame (s : State) (k : Lane) (o : OpenStack) (a : Arrival) :
    (s.addCollecting k o a).pending = s.pending ∧ (s.addCollecting k o a).pins = s.pins ∧
    (s.addCollecting k o a).node = s.node ∧ (s.addCollecting k o a).unit = s.unit ∧
    (s.addCollecting k o a).line = s.line ∧ (s.addCollecting k o a).queues = s.queues ∧
    (s.addCollecting k o a).track = s.track ∧ (s.addCollecting k o a).sched = s.sched ∧
    (s.addCollecting k o a).outs = s.outs ∧ (s.addCollecting k o a).setup = s.setup ∧
    (s.addCollecting k o a).freeIndex = s.freeIndex := by
  simp only [State.addCollecting]; split <;> simp

@[simp] theorem arrive_frame (s : State) (k : Lane) (a : Arrival) (p : Pos) :
    (s.arrive k a p).pending = s.pending ∧ (s.arrive k a p).pins = s.pins ∧ (s.arrive k a p).node = s.node ∧
    (s.arrive k a p).unit = s.unit ∧ (s.arrive k a p).line = s.line ∧ (s.arrive k a p).queues = s.queues ∧
    (s.arrive k a p).outs = s.outs ∧ (s.arrive k a p).setup = s.setup ∧
    (s.arrive k a p).freeIndex = s.freeIndex := by
  simp only [State.arrive, State.arriveCollecting, State.arriveStopped]
  repeat' split
  all_goals simp

@[simp] theorem offerArrival_frame (s : State) (k : Lane) (p : Pos) :
    (s.offerArrival k p).pending = s.pending ∧ (s.offerArrival k p).pins = s.pins ∧
    (s.offerArrival k p).node = s.node ∧ (s.offerArrival k p).unit = s.unit ∧
    (s.offerArrival k p).line = s.line ∧ (s.offerArrival k p).queues = s.queues ∧
    (s.offerArrival k p).outs = s.outs ∧ (s.offerArrival k p).setup = s.setup ∧
    (s.offerArrival k p).freeIndex = s.freeIndex := by
  unfold State.offerArrival; split <;> simp

@[simp] theorem arrival_frame (s : State) (k : Lane) (p : Pos) :
    (s.arrival k p).pending = s.pending ∧ (s.arrival k p).pins = s.pins ∧ (s.arrival k p).node = s.node ∧
    (s.arrival k p).unit = s.unit ∧ (s.arrival k p).line = s.line ∧ (s.arrival k p).queues = s.queues ∧
    (s.arrival k p).outs = s.outs ∧ (s.arrival k p).setup = s.setup ∧ (s.arrival k p).freeIndex = s.freeIndex := by
  unfold State.arrival; simp

@[simp] theorem sackRise_frame (s : State) (k : Lane) :
    (s.sackRise k).pending = s.pending ∧ (s.sackRise k).pins = s.pins ∧ (s.sackRise k).node = s.node ∧
    (s.sackRise k).unit = s.unit ∧ (s.sackRise k).line = s.line ∧ (s.sackRise k).queues = s.queues ∧
    (s.sackRise k).track = s.track ∧ (s.sackRise k).sched = s.sched ∧ (s.sackRise k).outs = s.outs ∧
    (s.sackRise k).tally = s.tally ∧ (s.sackRise k).setup = s.setup ∧ (s.sackRise k).freeIndex = s.freeIndex := by
  simp only [State.sackRise, State.warnHandshake]
  repeat' split
  all_goals simp

@[simp] theorem sclrRise_frame (s : State) (k : Lane) :
    (s.sclrRise k).pending = s.pending ∧ (s.sclrRise k).pins = s.pins ∧ (s.sclrRise k).node = s.node ∧
    (s.sclrRise k).unit = s.unit ∧ (s.sclrRise k).line = s.line ∧ (s.sclrRise k).queues = s.queues ∧
    (s.sclrRise k).track = s.track ∧ (s.sclrRise k).sched = s.sched ∧ (s.sclrRise k).outs = s.outs ∧
    (s.sclrRise k).setup = s.setup ∧ (s.sclrRise k).freeIndex = s.freeIndex := by
  simp only [State.sclrRise, State.warnHandshake]
  repeat' split
  all_goals simp

@[simp] theorem dischargeTimeout_frame (s : State) (k : Lane) :
    (s.dischargeTimeout k).pending = s.pending ∧ (s.dischargeTimeout k).pins = s.pins ∧
    (s.dischargeTimeout k).node = s.node ∧ (s.dischargeTimeout k).unit = s.unit ∧
    (s.dischargeTimeout k).line = s.line ∧ (s.dischargeTimeout k).queues = s.queues ∧
    (s.dischargeTimeout k).outs = s.outs ∧ (s.dischargeTimeout k).setup = s.setup ∧
    (s.dischargeTimeout k).freeIndex = s.freeIndex := by
  unfold State.dischargeTimeout; split <;> simp

@[simp] theorem stackStop_frame (s : State) (k : Lane) :
    (s.stackStop k).pending = s.pending ∧ (s.stackStop k).pins = s.pins ∧ (s.stackStop k).node = s.node ∧
    (s.stackStop k).unit = s.unit ∧ (s.stackStop k).line = s.line ∧ (s.stackStop k).queues = s.queues ∧
    (s.stackStop k).track = s.track ∧ (s.stackStop k).sched = s.sched ∧ (s.stackStop k).outs = s.outs ∧
    (s.stackStop k).setup = s.setup ∧ (s.stackStop k).freeIndex = s.freeIndex := by
  simp only [State.stackStop, State.stackStopAfter]; split <;> simp

@[simp] theorem stackDo_frame (s : State) (src : Byte) (k : Lane) (op : StackOp) (v : Byte) :
    (s.stackDo src k op v).pending = s.pending ∧ (s.stackDo src k op v).pins = s.pins ∧
    (s.stackDo src k op v).node = s.node ∧ (s.stackDo src k op v).unit = s.unit ∧
    (s.stackDo src k op v).line = s.line ∧ (s.stackDo src k op v).queues = s.queues ∧
    (s.stackDo src k op v).track = s.track ∧ (s.stackDo src k op v).sched = s.sched ∧
    (s.stackDo src k op v).outs = s.outs ∧ (s.stackDo src k op v).setup = s.setup ∧
    (s.stackDo src k op v).freeIndex = s.freeIndex := by
  simp only [State.stackDo, State.stackClose, State.stackStopAfter, State.stackResume, State.stackTarget]
  repeat' split
  all_goals simp

@[simp] theorem stackCmd_frame (s : State) (src l : Byte) (op : StackOp) (v : Byte) :
    (s.stackCmd src l op v).pending = s.pending ∧ (s.stackCmd src l op v).pins = s.pins ∧
    (s.stackCmd src l op v).node = s.node ∧ (s.stackCmd src l op v).unit = s.unit ∧
    (s.stackCmd src l op v).line = s.line ∧ (s.stackCmd src l op v).queues = s.queues ∧
    (s.stackCmd src l op v).track = s.track ∧ (s.stackCmd src l op v).sched = s.sched ∧
    (s.stackCmd src l op v).outs = s.outs ∧ (s.stackCmd src l op v).setup = s.setup ∧
    (s.stackCmd src l op v).freeIndex = s.freeIndex := by
  simp only [State.stackCmd]
  repeat' split
  all_goals simp

@[simp] theorem clearLane_frame (s : State) (src : Byte) (p : List Byte) :
    (s.clearLane src p).pending = s.pending ∧ (s.clearLane src p).pins = s.pins ∧
    (s.clearLane src p).node = s.node ∧ (s.clearLane src p).unit = s.unit ∧ (s.clearLane src p).line = s.line ∧
    (s.clearLane src p).queues = s.queues ∧ (s.clearLane src p).track = s.track ∧
    (s.clearLane src p).sched = s.sched ∧ (s.clearLane src p).outs = s.outs ∧
    (s.clearLane src p).setup = s.setup ∧ (s.clearLane src p).freeIndex = s.freeIndex := by
  simp only [State.clearLane, State.clearStopped]
  repeat' split
  all_goals simp

@[simp] theorem stage_frame (s : State) (src kd : Byte) (m : Option (StationMap × Code)) :
    (s.stage src kd m).pending = s.pending ∧ (s.stage src kd m).pins = s.pins ∧
    (s.stage src kd m).node = s.node ∧ (s.stage src kd m).unit = s.unit ∧ (s.stage src kd m).line = s.line ∧
    (s.stage src kd m).queues = s.queues ∧ (s.stage src kd m).track = s.track ∧
    (s.stage src kd m).sched = s.sched ∧ (s.stage src kd m).outs = s.outs ∧
    (s.stage src kd m).stackers = s.stackers ∧ (s.stage src kd m).tally = s.tally ∧
    (s.stage src kd m).freeIndex = s.freeIndex := by
  simp only [State.stage]
  repeat' split
  all_goals simp

@[simp] theorem load_frame (s : State) (src kd : Byte) (a b : Bool) (x : Option (Setup × Code)) :
    (s.load src kd a b x).pending = s.pending ∧ (s.load src kd a b x).pins = s.pins ∧
    (s.load src kd a b x).node = s.node ∧ (s.load src kd a b x).unit = s.unit ∧
    (s.load src kd a b x).line = s.line ∧ (s.load src kd a b x).queues = s.queues ∧
    (s.load src kd a b x).track = s.track ∧ (s.load src kd a b x).sched = s.sched ∧
    (s.load src kd a b x).outs = s.outs ∧ (s.load src kd a b x).stackers = s.stackers ∧
    (s.load src kd a b x).tally = s.tally ∧ (s.load src kd a b x).freeIndex = s.freeIndex := by
  simp only [State.load]
  repeat' split
  all_goals simp

@[simp] theorem setupGlobals_frame (s : State) (src : Byte) (p : List Byte) :
    (s.setupGlobals src p).pending = s.pending ∧ (s.setupGlobals src p).pins = s.pins ∧
    (s.setupGlobals src p).node = s.node ∧ (s.setupGlobals src p).unit = s.unit ∧
    (s.setupGlobals src p).line = s.line ∧ (s.setupGlobals src p).queues = s.queues ∧
    (s.setupGlobals src p).track = s.track ∧ (s.setupGlobals src p).sched = s.sched ∧
    (s.setupGlobals src p).outs = s.outs ∧ (s.setupGlobals src p).stackers = s.stackers ∧
    (s.setupGlobals src p).tally = s.tally ∧ (s.setupGlobals src p).freeIndex = s.freeIndex := by
  simp only [State.setupGlobals]
  repeat' split
  all_goals simp

@[simp] theorem setupStation_frame (s : State) (src : Byte) (p : List Byte) :
    (s.setupStation src p).pending = s.pending ∧ (s.setupStation src p).pins = s.pins ∧
    (s.setupStation src p).node = s.node ∧ (s.setupStation src p).unit = s.unit ∧
    (s.setupStation src p).line = s.line ∧ (s.setupStation src p).queues = s.queues ∧
    (s.setupStation src p).track = s.track ∧ (s.setupStation src p).sched = s.sched ∧
    (s.setupStation src p).outs = s.outs ∧ (s.setupStation src p).stackers = s.stackers ∧
    (s.setupStation src p).tally = s.tally ∧ (s.setupStation src p).freeIndex = s.freeIndex := by
  simp only [State.setupStation]
  repeat' split
  all_goals simp

@[simp] theorem setupOutput_frame (s : State) (src : Byte) (p : List Byte) :
    (s.setupOutput src p).pending = s.pending ∧ (s.setupOutput src p).pins = s.pins ∧
    (s.setupOutput src p).node = s.node ∧ (s.setupOutput src p).unit = s.unit ∧
    (s.setupOutput src p).line = s.line ∧ (s.setupOutput src p).queues = s.queues ∧
    (s.setupOutput src p).track = s.track ∧ (s.setupOutput src p).sched = s.sched ∧
    (s.setupOutput src p).outs = s.outs ∧ (s.setupOutput src p).stackers = s.stackers ∧
    (s.setupOutput src p).tally = s.tally ∧ (s.setupOutput src p).freeIndex = s.freeIndex := by
  simp only [State.setupOutput]
  repeat' split
  all_goals simp

@[simp] theorem setupDiverter_frame (s : State) (src : Byte) (p : List Byte) :
    (s.setupDiverter src p).pending = s.pending ∧ (s.setupDiverter src p).pins = s.pins ∧
    (s.setupDiverter src p).node = s.node ∧ (s.setupDiverter src p).unit = s.unit ∧
    (s.setupDiverter src p).line = s.line ∧ (s.setupDiverter src p).queues = s.queues ∧
    (s.setupDiverter src p).track = s.track ∧ (s.setupDiverter src p).sched = s.sched ∧
    (s.setupDiverter src p).outs = s.outs ∧ (s.setupDiverter src p).stackers = s.stackers ∧
    (s.setupDiverter src p).tally = s.tally ∧ (s.setupDiverter src p).freeIndex = s.freeIndex := by
  simp only [State.setupDiverter]
  repeat' split
  all_goals simp

@[simp] theorem loadArticle_frame (s : State) (src : Byte) (p : List Byte) :
    (s.loadArticle src p).pending = s.pending ∧ (s.loadArticle src p).pins = s.pins ∧
    (s.loadArticle src p).node = s.node ∧ (s.loadArticle src p).unit = s.unit ∧
    (s.loadArticle src p).line = s.line ∧ (s.loadArticle src p).queues = s.queues ∧
    (s.loadArticle src p).track = s.track ∧ (s.loadArticle src p).sched = s.sched ∧
    (s.loadArticle src p).outs = s.outs ∧ (s.loadArticle src p).stackers = s.stackers ∧
    (s.loadArticle src p).tally = s.tally ∧ (s.loadArticle src p).freeIndex = s.freeIndex := by
  simp only [State.loadArticle]
  repeat' split
  all_goals simp

@[simp] theorem loadPlan_frame (s : State) (src : Byte) (p : List Byte) :
    (s.loadPlan src p).pending = s.pending ∧ (s.loadPlan src p).pins = s.pins ∧
    (s.loadPlan src p).node = s.node ∧ (s.loadPlan src p).unit = s.unit ∧ (s.loadPlan src p).line = s.line ∧
    (s.loadPlan src p).queues = s.queues ∧ (s.loadPlan src p).track = s.track ∧
    (s.loadPlan src p).sched = s.sched ∧ (s.loadPlan src p).outs = s.outs ∧
    (s.loadPlan src p).stackers = s.stackers ∧ (s.loadPlan src p).tally = s.tally ∧
    (s.loadPlan src p).freeIndex = s.freeIndex := by
  simp only [State.loadPlan]
  repeat' split
  all_goals simp

@[simp] theorem loadCustomer_frame (s : State) (src : Byte) (p : List Byte) :
    (s.loadCustomer src p).pending = s.pending ∧ (s.loadCustomer src p).pins = s.pins ∧
    (s.loadCustomer src p).node = s.node ∧ (s.loadCustomer src p).unit = s.unit ∧
    (s.loadCustomer src p).line = s.line ∧ (s.loadCustomer src p).queues = s.queues ∧
    (s.loadCustomer src p).track = s.track ∧ (s.loadCustomer src p).sched = s.sched ∧
    (s.loadCustomer src p).outs = s.outs ∧ (s.loadCustomer src p).stackers = s.stackers ∧
    (s.loadCustomer src p).tally = s.tally ∧ (s.loadCustomer src p).freeIndex = s.freeIndex := by
  simp only [State.loadCustomer]
  repeat' split
  all_goals simp

@[simp] theorem loadLanes_frame (s : State) (src : Byte) (p : List Byte) :
    (s.loadLanes src p).pending = s.pending ∧ (s.loadLanes src p).pins = s.pins ∧
    (s.loadLanes src p).node = s.node ∧ (s.loadLanes src p).unit = s.unit ∧ (s.loadLanes src p).line = s.line ∧
    (s.loadLanes src p).queues = s.queues ∧ (s.loadLanes src p).track = s.track ∧
    (s.loadLanes src p).sched = s.sched ∧ (s.loadLanes src p).outs = s.outs ∧
    (s.loadLanes src p).stackers = s.stackers ∧ (s.loadLanes src p).tally = s.tally ∧
    (s.loadLanes src p).freeIndex = s.freeIndex := by
  simp only [State.loadLanes]
  repeat' split
  all_goals simp

@[simp] theorem lockEntry_frame (s : State) (src : Byte) (p : List Byte) :
    (s.lockEntry src p).pending = s.pending ∧ (s.lockEntry src p).pins = s.pins ∧
    (s.lockEntry src p).node = s.node ∧ (s.lockEntry src p).unit = s.unit ∧ (s.lockEntry src p).line = s.line ∧
    (s.lockEntry src p).queues = s.queues ∧ (s.lockEntry src p).track = s.track ∧
    (s.lockEntry src p).sched = s.sched ∧ (s.lockEntry src p).outs = s.outs ∧
    (s.lockEntry src p).stackers = s.stackers ∧ (s.lockEntry src p).tally = s.tally ∧
    (s.lockEntry src p).freeIndex = s.freeIndex := by
  simp only [State.lockEntry]
  repeat' split
  all_goals simp

@[simp] theorem commitMap_frame (s : State) (src : Byte) (p : List Byte) :
    (s.commitMap src p).pending = s.pending ∧ (s.commitMap src p).pins = s.pins ∧
    (s.commitMap src p).node = s.node ∧ (s.commitMap src p).queues = s.queues ∧
    (s.commitMap src p).track = s.track ∧ (s.commitMap src p).stackers = s.stackers ∧
    (s.commitMap src p).tally = s.tally ∧ (s.commitMap src p).freeIndex = s.freeIndex := by
  simp only [State.commitMap, State.commit]
  repeat' split
  all_goals simp

@[simp] theorem tallyFreeze_frame (s : State) (src : Byte) (p : List Byte) :
    (s.tallyFreeze src p).pending = s.pending ∧ (s.tallyFreeze src p).pins = s.pins ∧
    (s.tallyFreeze src p).node = s.node ∧ (s.tallyFreeze src p).unit = s.unit ∧
    (s.tallyFreeze src p).line = s.line ∧ (s.tallyFreeze src p).queues = s.queues ∧
    (s.tallyFreeze src p).track = s.track ∧ (s.tallyFreeze src p).sched = s.sched ∧
    (s.tallyFreeze src p).outs = s.outs ∧ (s.tallyFreeze src p).stackers = s.stackers ∧
    (s.tallyFreeze src p).setup = s.setup ∧ (s.tallyFreeze src p).freeIndex = s.freeIndex := by
  simp only [State.tallyFreeze, State.freezeTally]
  repeat' split
  all_goals simp

@[simp] theorem tallyRead_frame (s : State) (src : Byte) (p : List Byte) :
    (s.tallyRead src p).pending = s.pending ∧ (s.tallyRead src p).pins = s.pins ∧
    (s.tallyRead src p).node = s.node ∧ (s.tallyRead src p).unit = s.unit ∧ (s.tallyRead src p).line = s.line ∧
    (s.tallyRead src p).queues = s.queues ∧ (s.tallyRead src p).track = s.track ∧
    (s.tallyRead src p).sched = s.sched ∧ (s.tallyRead src p).outs = s.outs ∧
    (s.tallyRead src p).stackers = s.stackers ∧ (s.tallyRead src p).setup = s.setup ∧
    (s.tallyRead src p).freeIndex = s.freeIndex := by
  simp only [State.tallyRead, State.dropRead]
  repeat' split
  all_goals simp

@[simp] theorem statusRead_frame (s : State) (src : Byte) (p : List Byte) :
    (s.statusRead src p).pending = s.pending ∧ (s.statusRead src p).pins = s.pins ∧
    (s.statusRead src p).node = s.node ∧ (s.statusRead src p).unit = s.unit ∧
    (s.statusRead src p).line = s.line ∧ (s.statusRead src p).queues = s.queues ∧
    (s.statusRead src p).track = s.track ∧ (s.statusRead src p).sched = s.sched ∧
    (s.statusRead src p).outs = s.outs ∧ (s.statusRead src p).stackers = s.stackers ∧
    (s.statusRead src p).tally = s.tally ∧ (s.statusRead src p).setup = s.setup ∧
    (s.statusRead src p).freeIndex = s.freeIndex := by
  simp only [State.statusRead]
  repeat' split
  all_goals simp

@[simp] theorem itemRead_frame (s : State) (src : Byte) (p : List Byte) :
    (s.itemRead src p).pending = s.pending ∧ (s.itemRead src p).pins = s.pins ∧
    (s.itemRead src p).node = s.node ∧ (s.itemRead src p).unit = s.unit ∧ (s.itemRead src p).line = s.line ∧
    (s.itemRead src p).queues = s.queues ∧ (s.itemRead src p).track = s.track ∧
    (s.itemRead src p).sched = s.sched ∧ (s.itemRead src p).outs = s.outs ∧
    (s.itemRead src p).stackers = s.stackers ∧ (s.itemRead src p).tally = s.tally ∧
    (s.itemRead src p).setup = s.setup ∧ (s.itemRead src p).freeIndex = s.freeIndex := by
  simp only [State.itemRead]
  repeat' split
  all_goals simp

@[simp] theorem completeDrain_frame (s : State) :
    (s.completeDrain).pending = s.pending ∧ (s.completeDrain).pins = s.pins ∧ (s.completeDrain).node = s.node ∧
    (s.completeDrain).unit = s.unit ∧ (s.completeDrain).track = s.track ∧ (s.completeDrain).sched = s.sched ∧
    (s.completeDrain).outs = s.outs ∧ (s.completeDrain).stackers = s.stackers ∧
    (s.completeDrain).tally = s.tally ∧ (s.completeDrain).setup = s.setup ∧
    (s.completeDrain).freeIndex = s.freeIndex := by
  unfold State.completeDrain; split <;> simp

@[simp] theorem enterMode_frame (s : State) (l : LineState) :
    (s.enterMode l).pending = s.pending ∧ (s.enterMode l).pins = s.pins ∧ (s.enterMode l).node = s.node ∧
    (s.enterMode l).unit = s.unit ∧ (s.enterMode l).queues = s.queues ∧ (s.enterMode l).track = s.track ∧
    (s.enterMode l).sched = s.sched ∧ (s.enterMode l).setup = s.setup ∧ (s.enterMode l).freeIndex = s.freeIndex := by
  unfold State.enterMode; split <;> simp

@[simp] theorem lineMode_frame (s : State) (src : Byte) (l : LineState) :
    (s.lineMode src l).pending = s.pending ∧ (s.lineMode src l).pins = s.pins ∧
    (s.lineMode src l).node = s.node ∧ (s.lineMode src l).unit = s.unit ∧ (s.lineMode src l).track = s.track ∧
    (s.lineMode src l).sched = s.sched ∧ (s.lineMode src l).setup = s.setup ∧
    (s.lineMode src l).freeIndex = s.freeIndex := by
  simp only [State.lineMode, State.moveLine]; split <;> simp

@[simp] theorem lineModeAll_frame (s : State) (l : LineState) :
    (State.lineModeAll l s).pending = s.pending ∧ (State.lineModeAll l s).pins = s.pins ∧
    (State.lineModeAll l s).node = s.node ∧ (State.lineModeAll l s).unit = s.unit ∧
    (State.lineModeAll l s).track = s.track ∧ (State.lineModeAll l s).sched = s.sched ∧
    (State.lineModeAll l s).setup = s.setup ∧ (State.lineModeAll l s).freeIndex = s.freeIndex := by
  simp only [State.lineModeAll, State.moveLine, id]; split <;> simp

@[simp] theorem discardAll_frame (s : State) :
    (s.discardAll).pending = s.pending ∧ (s.discardAll).pins = s.pins ∧ (s.discardAll).node = s.node ∧
    (s.discardAll).unit = s.unit ∧ (s.discardAll).line = s.line ∧ (s.discardAll).loss = s.loss ∧
    (s.discardAll).queues = s.queues ∧ (s.discardAll).sched = s.sched ∧ (s.discardAll).outs = s.outs ∧
    (s.discardAll).stackers = s.stackers ∧ (s.discardAll).tally = s.tally ∧ (s.discardAll).setup = s.setup ∧
    (s.discardAll).link = s.link ∧ (s.discardAll).freeIndex = s.freeIndex := by
  unfold State.discardAll; simp

@[simp] theorem resetStacker_frame (s : State) (k : Lane) :
    (s.resetStacker k).pending = s.pending ∧ (s.resetStacker k).pins = s.pins ∧
    (s.resetStacker k).node = s.node ∧ (s.resetStacker k).unit = s.unit ∧ (s.resetStacker k).line = s.line ∧
    (s.resetStacker k).queues = s.queues ∧ (s.resetStacker k).track = s.track ∧
    (s.resetStacker k).sched = s.sched ∧ (s.resetStacker k).outs = s.outs ∧
    (s.resetStacker k).setup = s.setup ∧ (s.resetStacker k).freeIndex = s.freeIndex := by
  simp only [State.resetStacker]; simp

@[simp] theorem resetStackers_frame (s : State) :
    (s.resetStackers).pending = s.pending ∧ (s.resetStackers).pins = s.pins ∧ (s.resetStackers).node = s.node ∧
    (s.resetStackers).unit = s.unit ∧ (s.resetStackers).line = s.line ∧ (s.resetStackers).queues = s.queues ∧
    (s.resetStackers).track = s.track ∧ (s.resetStackers).sched = s.sched ∧ (s.resetStackers).outs = s.outs ∧
    (s.resetStackers).setup = s.setup ∧ (s.resetStackers).freeIndex = s.freeIndex := by
  unfold State.resetStackers
  refine ⟨?_, ?_, ?_, ?_, ?_, ?_, ?_, ?_, ?_, ?_, ?_⟩ <;> exact foldl_keeps _ _ (fun s a => by simp) _ _

@[simp] theorem resetBlocks_frame (s : State) :
    (s.resetBlocks).pending = s.pending ∧ (s.resetBlocks).pins = s.pins ∧ (s.resetBlocks).node = s.node ∧
    (s.resetBlocks).unit = s.unit ∧ (s.resetBlocks).line = s.line ∧ (s.resetBlocks).setup = s.setup ∧
    (s.resetBlocks).freeIndex = s.freeIndex := by
  unfold State.resetBlocks; simp

@[simp] theorem lineReset_frame (s : State) (src : Byte) (p : List Byte) :
    (s.lineReset src p).pending = s.pending ∧ (s.lineReset src p).pins = s.pins ∧
    (s.lineReset src p).node = s.node ∧ (s.lineReset src p).unit = s.unit ∧
    (s.lineReset src p).setup = s.setup ∧ (s.lineReset src p).freeIndex = s.freeIndex := by
  simp only [State.lineReset, State.lineResetWith]
  repeat' split
  all_goals simp

@[simp] theorem lineResetAll_frame (s : State) (p : List Byte) :
    (State.lineResetAll p s).pending = s.pending ∧ (State.lineResetAll p s).pins = s.pins ∧
    (State.lineResetAll p s).node = s.node ∧ (State.lineResetAll p s).unit = s.unit ∧
    (State.lineResetAll p s).setup = s.setup ∧ (State.lineResetAll p s).freeIndex = s.freeIndex := by
  simp only [State.lineResetAll, State.lineResetWith, id]
  repeat' split
  all_goals simp

@[simp] theorem routeLeading_frame (s : State) (k : Lane) (p : Pos) :
    (s.routeLeading k p).pending = s.pending ∧ (s.routeLeading k p).pins = s.pins ∧
    (s.routeLeading k p).node = s.node ∧ (s.routeLeading k p).unit = s.unit ∧
    (s.routeLeading k p).line = s.line ∧ (s.routeLeading k p).outs = s.outs ∧
    (s.routeLeading k p).setup = s.setup ∧ (s.routeLeading k p).freeIndex = s.freeIndex := by
  simp only [State.routeLeading]
  repeat' split
  all_goals simp

@[simp] theorem routeTrailing_frame (s : State) (k : Lane) (p : Pos) :
    (s.routeTrailing k p).pending = s.pending ∧ (s.routeTrailing k p).pins = s.pins ∧
    (s.routeTrailing k p).node = s.node ∧ (s.routeTrailing k p).unit = s.unit ∧
    (s.routeTrailing k p).line = s.line ∧ (s.routeTrailing k p).queues = s.queues ∧
    (s.routeTrailing k p).outs = s.outs ∧ (s.routeTrailing k p).setup = s.setup ∧
    (s.routeTrailing k p).freeIndex = s.freeIndex := by
  simp only [State.routeTrailing]
  repeat' split
  all_goals simp

@[simp] theorem routeArrival_frame (s : State) (k : Lane) (p : Pos) :
    (s.routeArrival k p).pending = s.pending ∧ (s.routeArrival k p).pins = s.pins ∧
    (s.routeArrival k p).node = s.node ∧ (s.routeArrival k p).unit = s.unit ∧
    (s.routeArrival k p).line = s.line ∧ (s.routeArrival k p).queues = s.queues ∧
    (s.routeArrival k p).outs = s.outs ∧ (s.routeArrival k p).setup = s.setup ∧
    (s.routeArrival k p).freeIndex = s.freeIndex := by
  simp only [State.routeArrival]
  repeat' split
  all_goals simp

@[simp] theorem setPin_frame (s : State) (x : Sensor) (b : Bool) :
    (s.setPin x b).pending = s.pending ∧ (s.setPin x b).node = s.node ∧ (s.setPin x b).unit = s.unit ∧
    (s.setPin x b).line = s.line ∧ (s.setPin x b).loss = s.loss ∧ (s.setPin x b).queues = s.queues ∧
    (s.setPin x b).track = s.track ∧ (s.setPin x b).sched = s.sched ∧ (s.setPin x b).outs = s.outs ∧
    (s.setPin x b).stackers = s.stackers ∧ (s.setPin x b).tally = s.tally ∧ (s.setPin x b).setup = s.setup ∧
    (s.setPin x b).link = s.link ∧ (s.setPin x b).freeIndex = s.freeIndex := by
  cases x <;> simp

@[simp] theorem setQual_frame (s : State) (x : Sensor) (q : Qualifier) :
    (s.setQual x q).pending = s.pending ∧ (s.setQual x q).pins = s.pins ∧ (s.setQual x q).node = s.node ∧
    (s.setQual x q).line = s.line ∧ (s.setQual x q).loss = s.loss ∧ (s.setQual x q).queues = s.queues ∧
    (s.setQual x q).track = s.track ∧ (s.setQual x q).sched = s.sched ∧ (s.setQual x q).outs = s.outs ∧
    (s.setQual x q).stackers = s.stackers ∧ (s.setQual x q).tally = s.tally ∧ (s.setQual x q).setup = s.setup ∧
    (s.setQual x q).link = s.link ∧ (s.setQual x q).freeIndex = s.freeIndex := by
  cases x <;> simp

@[simp] theorem coverQual_frame (s : State) (x : Sensor) :
    (s.coverQual x).pending = s.pending ∧ (s.coverQual x).pins = s.pins ∧ (s.coverQual x).node = s.node ∧
    (s.coverQual x).line = s.line ∧ (s.coverQual x).outs = s.outs ∧ (s.coverQual x).setup = s.setup ∧
    (s.coverQual x).freeIndex = s.freeIndex := by
  simp only [State.coverQual]
  cases x <;> simp only [State.leadingEvent] <;> split <;> simp

@[simp] theorem uncoverQual_frame (s : State) (x : Sensor) :
    (s.uncoverQual x).pending = s.pending ∧ (s.uncoverQual x).pins = s.pins ∧ (s.uncoverQual x).node = s.node ∧
    (s.uncoverQual x).line = s.line ∧ (s.uncoverQual x).loss = s.loss ∧ (s.uncoverQual x).queues = s.queues ∧
    (s.uncoverQual x).track = s.track ∧ (s.uncoverQual x).sched = s.sched ∧ (s.uncoverQual x).outs = s.outs ∧
    (s.uncoverQual x).stackers = s.stackers ∧ (s.uncoverQual x).tally = s.tally ∧
    (s.uncoverQual x).setup = s.setup ∧ (s.uncoverQual x).link = s.link ∧
    (s.uncoverQual x).freeIndex = s.freeIndex := by
  simp only [State.uncoverQual]
  split <;> simp

@[simp] theorem meetLaneOverlength_frame (s : State) (x : Sensor) :
    (s.meetLaneOverlength x).pending = s.pending ∧ (s.meetLaneOverlength x).pins = s.pins ∧
    (s.meetLaneOverlength x).node = s.node ∧ (s.meetLaneOverlength x).unit = s.unit ∧
    (s.meetLaneOverlength x).line = s.line ∧ (s.meetLaneOverlength x).loss = s.loss ∧
    (s.meetLaneOverlength x).queues = s.queues ∧ (s.meetLaneOverlength x).outs = s.outs ∧
    (s.meetLaneOverlength x).stackers = s.stackers ∧ (s.meetLaneOverlength x).tally = s.tally ∧
    (s.meetLaneOverlength x).setup = s.setup ∧ (s.meetLaneOverlength x).link = s.link ∧
    (s.meetLaneOverlength x).freeIndex = s.freeIndex := by
  simp only [State.meetLaneOverlength]
  repeat' split
  all_goals simp

@[simp] theorem confirmReached_frame (s : State) (x : Sensor) :
    (s.confirmReached x).pending = s.pending ∧ (s.confirmReached x).pins = s.pins ∧
    (s.confirmReached x).node = s.node ∧ (s.confirmReached x).line = s.line ∧
    (s.confirmReached x).queues = s.queues ∧ (s.confirmReached x).outs = s.outs ∧
    (s.confirmReached x).setup = s.setup ∧ (s.confirmReached x).freeIndex = s.freeIndex := by
  simp only [State.confirmReached]
  cases x <;> simp only [State.trailingEvent] <;> (repeat' split) <;> simp

@[simp] theorem settleQualifiers_frame (s : State) :
    (s.settleQualifiers).pending = s.pending ∧ (s.settleQualifiers).pins = s.pins ∧
    (s.settleQualifiers).node = s.node ∧ (s.settleQualifiers).line = s.line ∧
    (s.settleQualifiers).queues = s.queues ∧ (s.settleQualifiers).outs = s.outs ∧
    (s.settleQualifiers).setup = s.setup ∧ (s.settleQualifiers).freeIndex = s.freeIndex := by
  unfold State.settleQualifiers
  refine ⟨?_, ?_, ?_, ?_, ?_, ?_, ?_, ?_⟩ <;> exact foldl_keeps _ _ (fun s a => by simp) _ _

@[simp] theorem settleOverlength_frame (s : State) :
    (s.settleOverlength).pending = s.pending ∧ (s.settleOverlength).pins = s.pins ∧
    (s.settleOverlength).node = s.node ∧ (s.settleOverlength).unit = s.unit ∧
    (s.settleOverlength).line = s.line ∧ (s.settleOverlength).loss = s.loss ∧
    (s.settleOverlength).queues = s.queues ∧ (s.settleOverlength).outs = s.outs ∧
    (s.settleOverlength).stackers = s.stackers ∧ (s.settleOverlength).tally = s.tally ∧
    (s.settleOverlength).setup = s.setup ∧ (s.settleOverlength).link = s.link ∧
    (s.settleOverlength).freeIndex = s.freeIndex := by
  unfold State.settleOverlength
  refine ⟨?_, ?_, ?_, ?_, ?_, ?_, ?_, ?_, ?_, ?_, ?_, ?_, ?_⟩ <;> exact foldl_keeps _ _ (fun s a => by simp) _ _

@[simp] theorem fireIfListed_frame (s : State) (e : FireEntry) :
    (s.fireIfListed e).pending = s.pending ∧ (s.fireIfListed e).pins = s.pins ∧
    (s.fireIfListed e).node = s.node ∧ (s.fireIfListed e).unit = s.unit ∧ (s.fireIfListed e).line = s.line ∧
    (s.fireIfListed e).queues = s.queues ∧ (s.fireIfListed e).setup = s.setup ∧
    (s.fireIfListed e).freeIndex = s.freeIndex := by
  unfold State.fireIfListed; split <;> simp

@[simp] theorem settleFires_frame (s : State) :
    (s.settleFires).pending = s.pending ∧ (s.settleFires).pins = s.pins ∧ (s.settleFires).node = s.node ∧
    (s.settleFires).unit = s.unit ∧ (s.settleFires).line = s.line ∧ (s.settleFires).queues = s.queues ∧
    (s.settleFires).setup = s.setup ∧ (s.settleFires).freeIndex = s.freeIndex := by
  unfold State.settleFires
  refine ⟨?_, ?_, ?_, ?_, ?_, ?_, ?_, ?_⟩ <;> exact foldl_keeps _ _ (fun s a => by simp) _ _

@[simp] theorem settleJams_frame (s : State) :
    (s.settleJams).pending = s.pending ∧ (s.settleJams).pins = s.pins ∧ (s.settleJams).node = s.node ∧
    (s.settleJams).unit = s.unit ∧ (s.settleJams).line = s.line ∧ (s.settleJams).queues = s.queues ∧
    (s.settleJams).outs = s.outs ∧ (s.settleJams).setup = s.setup ∧ (s.settleJams).freeIndex = s.freeIndex := by
  unfold State.settleJams
  refine ⟨?_, ?_, ?_, ?_, ?_, ?_, ?_, ?_, ?_⟩ <;> exact foldl_keeps _ _ (fun s a => by simp) _ _

@[simp] theorem settleBusy_frame (s : State) :
    (s.settleBusy).pending = s.pending ∧ (s.settleBusy).pins = s.pins ∧ (s.settleBusy).node = s.node ∧
    (s.settleBusy).unit = s.unit ∧ (s.settleBusy).line = s.line ∧ (s.settleBusy).loss = s.loss ∧
    (s.settleBusy).queues = s.queues ∧ (s.settleBusy).track = s.track ∧ (s.settleBusy).outs = s.outs ∧
    (s.settleBusy).stackers = s.stackers ∧ (s.settleBusy).tally = s.tally ∧ (s.settleBusy).setup = s.setup ∧
    (s.settleBusy).link = s.link ∧ (s.settleBusy).freeIndex = s.freeIndex := by
  unfold State.settleBusy
  refine ⟨?_, ?_, ?_, ?_, ?_, ?_, ?_, ?_, ?_, ?_, ?_, ?_, ?_, ?_⟩ <;> exact foldl_keeps _ _ (fun s a => by simp) _ _

@[simp] theorem settleExpiries_frame (s : State) :
    (s.settleExpiries).pending = s.pending ∧ (s.settleExpiries).pins = s.pins ∧
    (s.settleExpiries).node = s.node ∧ (s.settleExpiries).unit = s.unit ∧ (s.settleExpiries).line = s.line ∧
    (s.settleExpiries).track = s.track ∧ (s.settleExpiries).sched = s.sched ∧
    (s.settleExpiries).outs = s.outs ∧ (s.settleExpiries).stackers = s.stackers ∧
    (s.settleExpiries).tally = s.tally ∧ (s.settleExpiries).setup = s.setup ∧
    (s.settleExpiries).freeIndex = s.freeIndex := by
  unfold State.settleExpiries
  refine ⟨?_, ?_, ?_, ?_, ?_, ?_, ?_, ?_, ?_, ?_, ?_, ?_⟩ <;> exact foldl_keeps _ _ (fun s a => by simp) _ _

@[simp] theorem settleShots_frame (s : State) :
    (s.settleShots).pending = s.pending ∧ (s.settleShots).pins = s.pins ∧ (s.settleShots).node = s.node ∧
    (s.settleShots).unit = s.unit ∧ (s.settleShots).line = s.line ∧ (s.settleShots).loss = s.loss ∧
    (s.settleShots).queues = s.queues ∧ (s.settleShots).track = s.track ∧ (s.settleShots).sched = s.sched ∧
    (s.settleShots).stackers = s.stackers ∧ (s.settleShots).tally = s.tally ∧ (s.settleShots).setup = s.setup ∧
    (s.settleShots).link = s.link ∧ (s.settleShots).freeIndex = s.freeIndex := by
  unfold State.settleShots
  refine ⟨?_, ?_, ?_, ?_, ?_, ?_, ?_, ?_, ?_, ?_, ?_, ?_, ?_, ?_⟩ <;> exact foldl_keeps _ _ (fun s a => by simp) _ _

@[simp] theorem settleDischarges_frame (s : State) :
    (s.settleDischarges).pending = s.pending ∧ (s.settleDischarges).pins = s.pins ∧
    (s.settleDischarges).node = s.node ∧ (s.settleDischarges).unit = s.unit ∧
    (s.settleDischarges).line = s.line ∧ (s.settleDischarges).queues = s.queues ∧
    (s.settleDischarges).outs = s.outs ∧ (s.settleDischarges).setup = s.setup ∧
    (s.settleDischarges).freeIndex = s.freeIndex := by
  unfold State.settleDischarges
  refine ⟨?_, ?_, ?_, ?_, ?_, ?_, ?_, ?_, ?_⟩ <;> exact foldl_keeps _ _ (fun s a => by simp) _ _

@[simp] theorem settle_frame (s : State) :
    (s.settle).pending = s.pending ∧ (s.settle).pins = s.pins ∧ (s.settle).node = s.node ∧
    (s.settle).setup = s.setup ∧ (s.settle).freeIndex = s.freeIndex := by
  unfold State.settle; simp

@[simp] theorem tick_frame (s : State) :
    (s.tick).pending = s.pending ∧ (s.tick).pins = s.pins ∧ (s.tick).node = s.node ∧ (s.tick).unit = s.unit ∧
    (s.tick).line = s.line ∧ (s.tick).loss = s.loss ∧ (s.tick).queues = s.queues ∧ (s.tick).track = s.track ∧
    (s.tick).sched = s.sched ∧ (s.tick).tally = s.tally ∧ (s.tick).setup = s.setup ∧ (s.tick).link = s.link ∧
    (s.tick).freeIndex = s.freeIndex := by
  unfold State.tick; simp

@[simp] theorem lineModePayload_frame (s : State) (src : Byte) (p : List Byte) :
    (s.lineModePayload src p).pending = s.pending ∧ (s.lineModePayload src p).pins = s.pins ∧
    (s.lineModePayload src p).node = s.node ∧ (s.lineModePayload src p).unit = s.unit ∧
    (s.lineModePayload src p).track = s.track ∧ (s.lineModePayload src p).sched = s.sched ∧
    (s.lineModePayload src p).setup = s.setup ∧ (s.lineModePayload src p).freeIndex = s.freeIndex := by
  unfold State.lineModePayload; split <;> simp

@[simp] theorem lineModePayloadAll_frame (s : State) (p : List Byte) :
    (State.lineModePayloadAll p s).pending = s.pending ∧ (State.lineModePayloadAll p s).pins = s.pins ∧
    (State.lineModePayloadAll p s).node = s.node ∧ (State.lineModePayloadAll p s).unit = s.unit ∧
    (State.lineModePayloadAll p s).track = s.track ∧ (State.lineModePayloadAll p s).sched = s.sched ∧
    (State.lineModePayloadAll p s).setup = s.setup ∧ (State.lineModePayloadAll p s).freeIndex = s.freeIndex := by
  unfold State.lineModePayloadAll; split <;> simp

@[simp] theorem stackCmdTelegram_frame (s : State) (src : Byte) (p : List Byte) :
    (s.stackCmdTelegram src p).pending = s.pending ∧ (s.stackCmdTelegram src p).pins = s.pins ∧
    (s.stackCmdTelegram src p).node = s.node ∧ (s.stackCmdTelegram src p).unit = s.unit ∧
    (s.stackCmdTelegram src p).line = s.line ∧ (s.stackCmdTelegram src p).queues = s.queues ∧
    (s.stackCmdTelegram src p).track = s.track ∧ (s.stackCmdTelegram src p).sched = s.sched ∧
    (s.stackCmdTelegram src p).outs = s.outs ∧ (s.stackCmdTelegram src p).setup = s.setup ∧
    (s.stackCmdTelegram src p).freeIndex = s.freeIndex := by
  unfold State.stackCmdTelegram
  repeat' split
  all_goals simp

@[simp] theorem forceOutputTelegram_frame (s : State) (src : Byte) (p : List Byte) :
    (s.forceOutputTelegram src p).pending = s.pending ∧ (s.forceOutputTelegram src p).pins = s.pins ∧
    (s.forceOutputTelegram src p).node = s.node ∧ (s.forceOutputTelegram src p).unit = s.unit ∧
    (s.forceOutputTelegram src p).line = s.line ∧ (s.forceOutputTelegram src p).queues = s.queues ∧
    (s.forceOutputTelegram src p).track = s.track ∧ (s.forceOutputTelegram src p).sched = s.sched ∧
    (s.forceOutputTelegram src p).stackers = s.stackers ∧ (s.forceOutputTelegram src p).tally = s.tally ∧
    (s.forceOutputTelegram src p).setup = s.setup ∧ (s.forceOutputTelegram src p).freeIndex = s.freeIndex := by
  unfold State.forceOutputTelegram
  repeat' split
  all_goals simp

@[simp] theorem act_frame (s : State) (t : Telegram) :
    (s.act t).pending = s.pending ∧ (s.act t).pins = s.pins ∧ (s.act t).node = s.node ∧
    (s.act t).freeIndex = s.freeIndex := by
  suffices h : ∀ P : State → Prop, (P = fun u => u.pending = s.pending ∧ u.pins = s.pins ∧ u.node = s.node ∧
      u.freeIndex = s.freeIndex) → P (s.act t) from h _ rfl
  intro P hP
  simp only [State.act]
  repeat' apply ite_keeps
  all_goals (subst hP; simp)

@[simp] theorem actAll_frame (t : Telegram) (s : State) :
    (State.actAll t s).pending = s.pending ∧ (State.actAll t s).pins = s.pins ∧
    (State.actAll t s).node = s.node ∧ (State.actAll t s).freeIndex = s.freeIndex := by
  simp only [State.actAll]; split <;> simp

@[simp] theorem dispose_frame (s : State) (t : Telegram) :
    (s.dispose t).pending = s.pending ∧ (s.dispose t).pins = s.pins ∧ (s.dispose t).node = s.node := by
  simp only [State.dispose, State.broadcast]
  repeat' split
  all_goals simp

@[simp] theorem takeTelegram_frame (s : State) :
    (s.takeTelegram).pending = s.pending ∧ (s.takeTelegram).pins = s.pins ∧ (s.takeTelegram).node = s.node := by
  simp only [State.takeTelegram]
  repeat' split
  all_goals simp

end Sys2Proof.Machine
end

