-- ==== Sys2Proof/Laws/Ops.lean ====
section
/-! SUPPORT. For each shared operation, once, what it answers and on what condition. -/

namespace Sys2Proof.Machine

open Sys2Proof.Safety

/-! ## When a command is taken -/

theorem whenUp_high {s : State} {f : State → State} (h : s.pins.rst = true) : whenUp s f = .next (f s) := by
  simp [whenUp, h]

theorem whenUp_low {s : State} {f : State → State} (h : s.pins.rst = false) : whenUp s f = .next s := by
  simp [whenUp, h]

/-- A guarded command always answers a next state: its effect, or the state as it was. -/
theorem whenUp_cases (s : State) (f : State → State) : whenUp s f = .next (f s) ∨ whenUp s f = .next s := by
  unfold whenUp; split <;> simp

theorem whenAddressed_acts {src : Byte} {s : State} {f : State → State} (h : s.pins.rst = true)
    (ha : s.addressable src = true) : whenAddressed src s f = .next (f s) := by
  simp [whenAddressed, whenUp, h, ha]

theorem whenAddressed_cases (src : Byte) (s : State) (f : State → State) :
    whenAddressed src s f = .next (f s) ∨ whenAddressed src s f = .next s := by
  unfold whenAddressed whenUp
  cases h : s.pins.rst <;> cases h' : s.addressable src <;> simp [h']

theorem broadcast_cases (s : State) (t : Telegram) (f : State → State) :
    s.broadcast t f = f ((s.setFreeIndex (s.freeIndex + 1)).forward t)
      ∨ s.broadcast t f = (f (s.setFreeIndex (s.freeIndex + 1))).forward t := by
  simp only [State.broadcast]; split <;> simp

theorem whenBroadcast_cases (t : Telegram) (s : State) (f : State → State) :
    whenBroadcast t s f = .next s ∨ whenBroadcast t s f = .next (f ((s.setFreeIndex (s.freeIndex + 1)).forward t))
      ∨ whenBroadcast t s f = .next ((f (s.setFreeIndex (s.freeIndex + 1))).forward t) := by
  unfold whenBroadcast whenUp
  cases s.pins.rst <;> cases h' : s.ownTelegram t.src <;> rcases broadcast_cases s t f with h | h <;> simp [h, h']

/-! ## Telegram bytes -/

@[simp] theorem byteFin_byteOf {n : Nat} (i : Fin n) (h : n ≤ 256) : byteFin n (byteOf i) = some i := by
  have : i.1 % 256 = i.1 := Nat.mod_eq_of_lt (by omega)
  simp [byteFin, byteOf, this]

theorem word16_bytes {n : Nat} (h : n < 65536) : word16 (byteOf (n / 256)) (byteOf n) = n := by
  simp only [word16, byteOf, BitVec.toNat_ofNat]; omega

theorem byteOf_toNat {n : Nat} (h : n < 256) : (byteOf n).toNat = n := by
  simp only [byteOf, BitVec.toNat_ofNat]; omega

@[simp] theorem bytes16_length (n : Nat) : (bytes16 n).length = 2 := rfl
@[simp] theorem bytes24_length (n : Nat) : (bytes24 n).length = 3 := rfl
@[simp] theorem posBytes_length (p : Pos) : (posBytes p).length = 3 := rfl
@[simp] theorem optPosBytes_length (p : Option Pos) : (optPosBytes p).length = 3 := rfl

/-! ## The outbound line (R173) -/

theorem report_room {s : State} {ts : List Telegram} (h : s.link.reports.length + ts.length ≤ 16) :
    s.report ts = s.setLink { s.link with reports := s.link.reports ++ ts }.start := by
  simp [State.report, State.reportRoom, h]

theorem report_full {s : State} {ts : List Telegram} (h : 16 < s.link.reports.length + ts.length) :
    s.report ts = s.setLoss true := by
  simp [State.report, State.reportRoom, Nat.not_le.mpr h]

theorem emit_31 {s : State} {n : Note} (h : s.node = 31) : s.emit n = s := by simp [State.emit, h]

theorem emit_report {s : State} {n : Note} (h : s.node ≠ 31) : s.emit n = s.report [s.noteTelegram n] := by
  unfold State.emit; exact if_neg h

/-! ## Stacks (R115, R128) -/

theorem closeStack_empty {s : State} {k : Lane} {c : CloseCause} {p : Phase} (h : (s.stackers[k]).stack = none) :
    s.closeStack k c p = s := by
  have h' : s.stackers[k.1].stack = none := h
  simp [State.closeStack, h']

theorem closeStack_open {s : State} {k : Lane} {c : CloseCause} {p : Phase} {o : OpenStack}
    (h : (s.stackers[k]).stack = some o) :
    s.closeStack k c p =
      (((s.emit (.stackDone k (s.stackers[k]).serial o.key o.pieces o.strays o.target o.batchStart c
        (s.stackers[k]).unplaced)).credit o.key o.pieces 1 0).setStacker k ((s.stackers[k]).closed p)) := by
  have h' : s.stackers[k.1].stack = some o := h
  simp [State.closeStack, h']

/-- R128: outside DRAIN, or with a live record, no stacker closes. -/
theorem drainCloses_none {s : State} (h : s.line ≠ .drain ∨ s.tableEmpty = false) : s.drainCloses = s := by
  have : ∀ k, s.drainClose k = s := by
    intro k; rcases h with h | h <;> simp [State.drainClose, h]
  simp [State.drainCloses, allLanes, List.finRange, this]

theorem tableEmpty_iff (s : State) : s.tableEmpty = true ↔ ∀ t : Tag, s.record t = none := by
  simp only [State.tableEmpty, State.record, List.all_eq_true, Option.isNone_iff_eq_none]
  constructor
  · intro h t
    exact h _ (by simp)
  · intro h r hr
    obtain ⟨i, hi, rfl⟩ := List.getElem_of_mem hr
    simpa using h ⟨i, by simpa using hi⟩

/-! ## The jam wait (R46) -/

/-- The oldest record of a lane in a state is a live one of that lane and state. -/
theorem oldest_some {s : State} {k : Lane} {st : RecordState} {t : Tag} (h : s.oldest k st = some t) :
    ∃ r, s.record t = some r ∧ r.lane = k ∧ r.state = st := by
  have := List.find?_some h
  simp only [Option.any_eq_true, decide_eq_true_eq] at this
  obtain ⟨r, h1, h2, h3⟩ := this
  exact ⟨r, h1, h2, h3⟩

/-- With no record of the lane overdue, passing the jam wait on changes nothing. -/
theorem passJamWait_none {s : State} {k : Lane} (h : NoneOverdue s k) : s.passJamWait k = s := by
  unfold State.passJamWait
  simp only [State.jamOverdue]
  split
  · rfl
  · rename_i t ht
    obtain ⟨r, hr, hl, hs⟩ := oldest_some ht
    simp only [hr]
    split
    · rfl
    · rename_i p hp
      simp [h t r hr hl hs p hp]

/-- With no record of the lane overdue, the jam wait passes to no record that jams. -/
theorem passJamWaitFrom_none {s : State} {k : Lane} (h : NoneOverdue s k) (old : Option Tag) :
    s.passJamWaitFrom k old = s := by
  unfold State.passJamWaitFrom
  split
  · rfl
  · exact passJamWait_none h

/-- While the lane's oldest TO_STACK record stays the oldest, the jam wait stays on it. -/
theorem passJamWaitFrom_same (s : State) (k : Lane) : s.passJamWaitFrom k (s.oldest k .toStack) = s := by
  simp [State.passJamWaitFrom]

/-! ## Timers (R7) -/

/-- A tick takes one from a timer that runs and leaves one that is stopped. -/
@[simp] theorem tickTimer_none : tickTimer none = none := rfl
@[simp] theorem tickTimer_some (n : Nat) : tickTimer (some n) = some (n - 1) := rfl

/-- A shot whose expiry is not due stays as it is. -/
theorem expireShot_none {s : State} {o : OutId} (h : (s.outs[o]).timer ≠ some 0) : s.expireShot o = s := by
  simp only [State.expireShot, h, if_false]

/-- A discharge whose expiry is not due stays as it is. -/
theorem dischargeTimeout_none {s : State} {k : Lane} (h : (s.stackers[k]).timer ≠ some 0) :
    s.dischargeTimeout k = s := by
  simp only [State.dischargeTimeout, h, and_false, if_false]

/-- A jam that an advance has met carries the present position. -/
theorem jamNoteAt_met {s : State} {r : ItemRecord} (h : s.jamPosition r = some s.position) :
    s.jamNoteAt r = s.position := by
  simp [State.jamNoteAt, h]

/-- A broadcast of the part's own does nothing. -/
theorem whenBroadcast_own {t : Telegram} {s : State} {f} (h : s.pins.rst = true) (h1 : s.node ≠ 31) (h2 : t.src.toNat = s.node.toNat) : whenBroadcast t s f = .next s := by
  simp [whenBroadcast, whenUp, h, State.ownTelegram, h2]; intro e; exact absurd e h1

/-- A broadcast of another node is acted on and forwarded. -/
theorem whenBroadcast_other {t : Telegram} {s : State} {f} (h : s.pins.rst = true) (h1 : s.node = 31 ∨ t.src.toNat ≠ s.node.toNat) : whenBroadcast t s f = .next (s.broadcast t f) := by
  have : s.ownTelegram t.src = false := by
    simp only [State.ownTelegram]; rcases h1 with h | h <;> simp [h]
  simp [whenBroadcast, whenUp, h, this]

/-- A byte out of range names nothing. -/
theorem byteFin_none {n : Nat} {b : Byte} (h : n ≤ b.toNat) : byteFin n b = none := by simp [byteFin, h]

/-- Outside DRAIN no drain completes. -/
theorem completeDrain_not {s : State} (h : s.line ≠ .drain) : s.completeDrain = s := by
  simp [State.completeDrain, h]

/-- With a record live no drain completes. -/
theorem completeDrain_live {s : State} (h : ∃ t : Tag, s.record t ≠ none) : s.completeDrain = s := by
  have : s.drainDone = false := by
    simp only [State.drainDone]
    have : s.tableEmpty = false := by
      rw [← Bool.not_eq_true, tableEmpty_iff]; intro h'; obtain ⟨t, ht⟩ := h; exact ht (h' t)
    simp [this]
  simp [State.completeDrain, this]

/-- A new fire entry is one more, wherever it stands. -/
theorem insertEntry_perm (now : Pos) (e : FireEntry) (l : List FireEntry) : (insertEntry now e l).Perm (e :: l) := by
  induction l with
  | nil => simp [insertEntry]
  | cons a l ih =>
    simp only [insertEntry]; split
    · exact List.Perm.refl _
    · exact (List.Perm.cons a ih).trans (List.Perm.swap ..)

end Sys2Proof.Machine
end

