-- ==== Sys2Proof/Laws/Lanes.lean ====
section
/-! SUPPORT. What a lane's stop, a retirement, an edge and a confirmation come to, where nothing else is due. -/

namespace Sys2Proof.Machine

open Sys2Proof.Safety

/-! ## Agreement of notes -/

/-- What is reported depends on the link and the report-loss flag alone. -/
theorem report_congr {s u : State} (h : s.link = u.link) (h2 : s.loss = u.loss) (ts) :
   (s.report ts).link = (u.report ts).link ∧ (s.report ts).loss = (u.report ts).loss := by
  simp only [State.report, reportRoom_congr h]
  split <;> simp [h, h2]

/-- A note is reported alike by states that agree on the link, the flag, the node and the tables. -/
theorem emit_congr {s u : State} (h : s.link = u.link) (h2 : s.loss = u.loss) (h3 : s.node = u.node) (h4 : s.setup = u.setup) (n) :
   (s.emit n).link = (u.emit n).link ∧ (s.emit n).loss = (u.emit n).loss := by
  simp only [State.emit, State.noteTelegram, reportNode_congr h4, nodeByte_congr h3, h3]
  split
  · exact ⟨h, h2⟩
  · exact report_congr h h2 _

/-- What notes add depends on the same. -/
theorem emits_congr (l : List Note) {s u : State} (h : s.link = u.link) (h2 : s.loss = u.loss) (h3 : s.node = u.node) (h4 : s.setup = u.setup) :
   (l.foldl State.emit s).link = (l.foldl State.emit u).link ∧ (l.foldl State.emit s).loss = (l.foldl State.emit u).loss := by
  induction l generalizing s u with
  | nil => exact ⟨h, h2⟩
  | cons a l ih =>
    have := emit_congr h h2 h3 h4 a
    exact ih this.1 this.2 (by simpa) (by simpa)

/-- A note of a lost entry, by the entry. -/
theorem lostNote_eq (s : State) (k : Lane) (c e) : s.lostNote k c e = (match e with
      | .announce a i stamp => Note.lost (byteOf k) c .announce (some (byteOf a)) (some i) stamp s.position
      | .separator stamp => Note.lost (byteOf k) c .separator none none stamp s.position) := by cases e <;> rfl

/-- The entries lost are noted one by one. -/
theorem emitLosts_eq (k : Lane) (c : LostCause) (l : List QueueEntry) (s : State) : l.foldl (State.emitLost k c) s = (l.map (s.lostNote k c)).foldl State.emit s := by
  have : ∀ (u : State), u.position = s.position → l.foldl (State.emitLost k c) u = (l.map (s.lostNote k c)).foldl State.emit u := by
    induction l with
    | nil => intro u _; rfl
    | cons a l ih =>
      intro u hu
      have e : State.emitLost k c u a = u.emit (s.lostNote k c a) := by
        simp only [State.emitLost, lostNote_eq, hu]
      simp only [List.foldl_cons, List.map_cons, e]
      exact ih _ (by simp [State.position]; simpa [State.position] using hu)
  exact this s rfl

/-! ## The lane-stop conversion (R51, R52) -/

/-- Agreement on what the conversion reads and writes. -/
def Agree (s u : State) : Prop := s.track = u.track ∧ s.sched = u.sched ∧ s.position = u.position ∧ s.setup = u.setup

theorem bookDiverter_agree {s u : State} (h : Agree s u) (k t kd p) : Agree (s.bookDiverter k t kd p) (u.bookDiverter k t kd p) := by
  obtain ⟨h1, h2, h3, h4⟩ := h
  have hm := map_congr h4
  have hp := h3
  simp only [State.bookDiverter, hm, Fin.getElem_fin]
  cases hd : u.map.diverters[k.1].output <;> simp [Agree, State.insertEntry, State.setEntries, h1, h2, hp, h4] <;> exact h3

theorem setRecord_agree {s u : State} (h : Agree s u) (t r) : Agree (s.setRecord t r) (u.setRecord t r) := by
  obtain ⟨h1, h2, h3, h4⟩ := h
  simp [Agree, h1, h2, h4]; exact h3

theorem convertOne_agree {s u : State} (h : Agree s u) (k t) : Agree (State.convertOne k s t) (State.convertOne k u t) := by
  have h' := h
  obtain ⟨h1, h2, h3, h4⟩ := h
  have hm := map_congr h4
  have hp := h3
  simp only [State.convertOne, record_congr h1]
  split
  · exact h'
  · rename_i r hr
    have e : s.convertible k r = u.convertible k r := by simp [State.convertible, hp, State.openAt, hm]
    rw [e]
    split
    · simp only [State.convertRecord]
      have e2 : s.openAt k r.headRef = u.openAt k r.headRef := by simp [State.openAt, hm]
      rw [e2]
      have b : Agree ((s.cancelFolds t).setRecord t { r with steps := cancelPending r.steps, reason := some .laneStopped })
         ((u.cancelFolds t).setRecord t { r with steps := cancelPending r.steps, reason := some .laneStopped }) := by
        simp [Agree, State.cancelFolds, State.setEntries, h1, h2, h4]; exact h3
      cases hn : r.curLen with
      | none => rw [hn] at b; exact bookDiverter_agree b ..
      | some n =>
        rw [hn] at b
        have b2 := bookDiverter_agree b k t .divertOpen (u.openAt k r.headRef)
        have hc : ∀ p, s.closeAt k p = u.closeAt k p := by intro p; simp [State.closeAt, hm]
        simp only [hc]
        apply bookDiverter_agree
        exact setRecord_agree b2 ..
    · exact h'

/-- The conversion makes the same table and schedule of states that agree on what it reads. -/
theorem convertLane_agree {s u : State} (h : Agree s u) (k) : Agree (s.convertLane k) (u.convertLane k) := by
  simp only [State.convertLane, h.1]
  generalize u.track.order = l
  induction l generalizing s u with
  | nil => exact h
  | cons a l ih => exact ih (convertOne_agree h k a)

theorem convertOne_track (k : Lane) (s : State) (t : Tag) : (State.convertOne k s t).track.order = s.track.order ∧ (State.convertOne k s t).track.counters = s.track.counters := by
  simp only [State.convertOne, State.convertRecord]
  repeat' split
  all_goals simp

/-- The conversion leaves the entry order and the lane counters. -/
theorem convertLane_track (k : Lane) (s : State) : (s.convertLane k).track.order = s.track.order ∧ (s.convertLane k).track.counters = s.track.counters := by
  unfold State.convertLane
  exact ⟨foldl_keeps (fun s => s.track.order) _ (fun s a => (convertOne_track k s a).1) _ _, foldl_keeps (fun s => s.track.counters) _ (fun s a => (convertOne_track k s a).2) _ _⟩

theorem convertOne_back (k : Lane) (s : State) (x : Tag) (t : Tag) (r' : ItemRecord) (h : (State.convertOne k s x).record t = some r') :
   ∃ r, s.record t = some r ∧ r'.lane = r.lane ∧ r'.expected = r.expected ∧ (r'.state = .toStack → r.state = .toStack) := by
  unfold State.convertOne at h
  split at h
  · exact ⟨r', h, by simp⟩
  · rename_i r hr
    split at h
    · rename_i hc
      have : ∃ y : ItemRecord, (s.convertRecord k x r).record t = (if x = t then some y else s.record t) ∧ y.lane = r.lane ∧ y.expected = r.expected ∧ (y.state = .toStack → r.state = .toStack) := by
        simp only [State.convertRecord]
        split
        · refine ⟨{ r with steps := cancelPending r.steps, reason := some .laneStopped }, ?_, rfl, rfl, id⟩
          simp only [State.record, bookDiverter_frame]
          simp [State.setRecord, State.setTrack, getElem_upd, Fin.ext_iff]
        · refine ⟨{ r with steps := cancelPending r.steps, reason := some .laneStopped, state := .diverting }, ?_, rfl, rfl, by simp⟩
          simp only [State.record, bookDiverter_frame]
          simp [State.setRecord, State.setTrack, getElem_upd, Fin.ext_iff]
          split <;> simp_all [getElem_upd]
      obtain ⟨y, h1, h2, h3, h4⟩ := this
      rw [h1] at h
      split at h
      · rename_i e; subst e; simp at h; subst h; exact ⟨r, hr, h2, h3, h4⟩
      · exact ⟨r', h, rfl, rfl, id⟩
    · exact ⟨r', h, by simp⟩

/-- Where a converted record comes from. -/
theorem convertLane_back (k : Lane) (s : State) (t : Tag) (r' : ItemRecord) (h : (s.convertLane k).record t = some r') :
   ∃ r, s.record t = some r ∧ r'.lane = r.lane ∧ r'.expected = r.expected ∧ (r'.state = .toStack → r.state = .toStack) := by
  unfold State.convertLane at h
  generalize s.track.order = l at h
  induction l generalizing s with
  | nil => exact ⟨r', h, rfl, rfl, id⟩
  | cons a l ih =>
    obtain ⟨r, h1, h2, h3, h4⟩ := ih _ h
    obtain ⟨q, g1, g2, g3, g4⟩ := convertOne_back k s a t r h1
    exact ⟨q, g1, h2.trans g2, h3.trans g3, fun x => g4 (h4 x)⟩

/-- The conversion makes no record overdue. -/
theorem NoneOverdue_convert {s : State} {k j : Lane} (h : NoneOverdue s k) : NoneOverdue (s.convertLane j) k := by
  intro t r hr hl hs p hp
  obtain ⟨q, g1, g2, g3, g4⟩ := convertLane_back j s t r hr
  have hpos : (s.convertLane j).position = s.position := by simp [State.position]
  rw [hpos]
  refine h t q g1 (g2 ▸ hl) (g4 hs) p ?_
  rw [jamPosition_congr (u := s) (by simp)] at hp
  simpa [State.jamPosition, g3] using hp

theorem NoneOverdue_agree {s u : State} (h : Agree s u) (k) : NoneOverdue s k ↔ NoneOverdue u k := by
  obtain ⟨h1, h2, h3, h4⟩ := h
  have hp := h3
  unfold NoneOverdue
  simp [record_congr h1, jamPosition_congr h4, hp]

theorem stop_eq (st : Stacker) : st.stop = stopped st := by
  unfold Stacker.stop stopped; cases st; dsimp only; split <;> simp_all

/-- R166: a lane fault, whole, but for the jam wait. -/
theorem stopLane_eq (s : State) (k : Lane) (f : FaultKind) (p : Pos) :
   s.stopLane k f p = { s with
      stackers := upd s.stackers k (stopped s.stackers[k])
      track := (s.convertLane k).track, sched := (s.convertLane k).sched
      link := (s.emit (.fault k f p)).link, loss := (s.emit (.fault k f p)).loss } := by
  have a : Agree ((s.emit (.fault k f p)).setStacker k ((s.emit (.fault k f p)).stackers[k]).stop) s := by simp [Agree, State.position]
  have := convertLane_agree a k
  simp only [State.stopLane]
  apply state_ext <;> simp [stop_eq]
  · have := this.1; simpa [stop_eq] using this
  · have := this.2.1; simpa [stop_eq] using this

/-- R166: a lane fault, whole, where no record of the lane is overdue. -/
theorem raiseFault_eq (s : State) (k : Lane) (f : FaultKind) (p : Pos) (h : NoneOverdue s k) :
   s.raiseFault k f p = { s with
      stackers := upd s.stackers k (stopped s.stackers[k])
      track := (s.convertLane k).track, sched := (s.convertLane k).sched
      link := (s.emit (.fault k f p)).link, loss := (s.emit (.fault k f p)).loss } := by
  unfold State.raiseFault
  rw [passJamWaitFrom_none, stopLane_eq]
  rw [stopLane_eq]
  refine (NoneOverdue_agree ?_ k).mp (NoneOverdue_convert (j := k) h)
  simp [Agree, State.position]

/-! ## Retirement (R50) -/

theorem passBatch_record (s : State) (t : Tag) (r : ItemRecord) (f : Fate) (t' : Tag) :
   (s.passBatch t r f).record t' = if (takesBatch s t r t' && f.passesBatch) = true then (s.record t').map (fun x => { x with startsBatch := true }) else s.record t' := by
  simp only [State.passBatch, takesBatch]
  rcases Bool.eq_false_or_eq_true r.startsBatch with hb | hb <;> rcases Bool.eq_false_or_eq_true f.passesBatch with hf | hf <;> simp [hb, hf]
  cases hn : s.nextOfLane t r.lane with
  | none => simp
  | some n =>
    simp only
    cases hr : s.record n with
    | none =>
      by_cases e : n = t'
      · subst e; simp [hr]
      · simp [e]
    | some x =>
      by_cases e : n = t'
      · subst e; simp [hr]; simp [State.record]
      · have e' : ¬ n.1 = t'.1 := fun h => e (Fin.ext h)
        simp [e]; simp [State.record, getElem_upd, e']

theorem passBatch_track (s : State) (t : Tag) (r : ItemRecord) (f : Fate)  :
   (s.passBatch t r f).track.order = s.track.order ∧ (s.passBatch t r f).track.counters = s.track.counters := by
  simp only [State.passBatch]
  repeat' split
  all_goals simp

/-- What a retirement makes of every other record. -/
theorem retire_record (s : State) (t : Tag) (r : ItemRecord) (f : Fate) (t' : Tag) (h : t' ≠ t) :
   (s.retire t r f).record t' = if (takesBatch s t r t' && f.passesBatch) = true then (s.record t').map (fun x => { x with startsBatch := true }) else s.record t' := by
  rw [← passBatch_record]
  have e' : ¬ t.1 = t'.1 := fun e => h (Fin.ext e.symm)
  simp [State.retire, State.count, State.cancelAll, State.freeSlot, State.record, State.setEntries, getElem_upd, e']

theorem retire_self (s : State) (t : Tag) (r : ItemRecord) (f : Fate) : (s.retire t r f).record t = none := by
  simp [State.retire, State.count, State.cancelAll, State.freeSlot, State.record, State.setEntries, getElem_upd]

/-- What a retirement makes of the entry order, the lane counters and the schedule. -/
theorem retire_rest (s : State) (t : Tag) (r : ItemRecord) (f : Fate) : 
   (s.retire t r f).track.order = s.track.order.filter (fun x => decide (x ≠ t))
   ∧ (s.retire t r f).track.counters = upd s.track.counters r.lane ((s.track.counters[r.lane]).advance f.counter)
   ∧ (s.retire t r f).sched = { s.sched with entries := s.sched.entries.filter (fun e => decide (e.tag ≠ t)) } := by
  have := passBatch_track s t r f
  simp [State.retire, State.count, State.cancelAll, State.freeSlot, State.setEntries, this]

/-- Where a record comes from that a retirement leaves. -/
theorem retire_back (s : State) (t : Tag) (r : ItemRecord) (f : Fate) (t' : Tag) (r' : ItemRecord) (h : (s.retire t r f).record t' = some r') :
   t' ≠ t ∧ ∃ q, s.record t' = some q ∧ r'.lane = q.lane ∧ r'.expected = q.expected ∧ r'.state = q.state ∧ r'.len = q.len := by
  by_cases e : t' = t
  · subst e; rw [retire_self] at h; simp at h
  · refine ⟨e, ?_⟩
    rw [retire_record _ _ _ _ _ e] at h
    split at h
    · simp at h
      obtain ⟨a, h1, h2⟩ := h
      subst h2
      exact ⟨a, h1, by simp⟩
    · exact ⟨r', h, by simp⟩

/-- With another live record a retirement lets no stacker close for a drain. -/
theorem drainCloses_live {s : State} (t : Tag) (r : ItemRecord) (f : Fate) (h : s.line = .drain → ∃ t' : Tag, t' ≠ t ∧ s.record t' ≠ none) :
   (s.retire t r f).drainCloses = s.retire t r f := by
  apply drainCloses_none
  by_cases hl : s.line = .drain
  · right
    obtain ⟨t', h1, h2⟩ := h hl
    rw [← Bool.not_eq_true, tableEmpty_iff]
    intro h3
    have := h3 t'
    rw [retire_record _ _ _ _ _ h1] at this
    split at this <;> simp_all
  · left; simpa using hl

/-- A state whose records come from records that are not overdue has none overdue. -/
theorem NoneOverdue_of {s u : State} {k : Lane} (hp : u.position = s.position) (hs : u.setup = s.setup)
   (h : ∀ t r', u.record t = some r' → ∃ r, s.record t = some r ∧ r'.lane = r.lane ∧ r'.expected = r.expected ∧ (r'.state = .toStack → r.state = .toStack)
     ∧ (r.lane = k → r.state = .toStack → ∀ p ∈ s.jamPosition r, ahead s.position p = true)) : NoneOverdue u k := by
  intro t r hr hl hst p hpp
  obtain ⟨q, g1, g2, g3, g4, g5⟩ := h t r hr
  rw [hp]
  refine g5 (g2 ▸ hl) (g4 hst) p ?_
  rw [jamPosition_congr hs] at hpp
  simpa [State.jamPosition, g3] using hpp

theorem jamOverdue_none {s : State} {k : Lane} (n : Nat) (h : NoneOverdue s k) : State.jamOverdue n k s = s := by
  cases n with
  | zero => rfl
  | succ n =>
    simp only [State.jamOverdue]
    split
    · rfl
    · rename_i t ht
      obtain ⟨r, hr, hl, hs⟩ := oldest_some ht
      simp only [hr]
      split
      · rfl
      · rename_i p hp
        simp [h t r hr hl hs p hp]

/-! ## Edges -/

/-- R21: with the head not due nothing expires. -/
theorem expireHeads_none {s : State} {k : Lane} (h : ∀ e ∈ (s.queues[k]).head?, s.expiryOf e ≠ s.position) : s.expireHeads k = s := by
  have h' : ∀ e ∈ (s.queues[k.1]).head?, s.expiryOf e ≠ s.position := h
  simp only [State.expireHeads, State.expiredHeads, Fin.getElem_fin]
  have : (s.queues[k.1]).dropWhile (fun e => decide (s.expiryOf e = s.position)) = s.queues[k.1] ∧
     (s.queues[k.1]).takeWhile (fun e => decide (s.expiryOf e = s.position)) = [] := by
    cases hq : s.queues[k.1] with
    | nil => simp
    | cons a l =>
      have := h' a (by simp [hq])
      simp [this]
  simp [this]
  rfl

/-- R16: an arrival that goes to its stacker. -/
theorem cover_es {s : State} {k : Lane} (h1 : s.pins.rst = true) (h2 : s.pins.es[k] = false) (h3 : s.unit.esQual[k] = .clear) (h4 : s.line.runs = true)
  (h5 : s.enabled k = true) : exec (.cover (.es k)) s = .next (((s.setPin (.es k) true).setQual (.es k) .covered).arrival k s.position) := by
  have h2' : s.pins.es[k.1] = false := h2
  have h3' : s.unit.esQual[k.1] = .clear := h3
  set w := (s.setPin (.es k) true).setQual (.es k) .covered with hw
  have hen : w.enabled k = true := by rw [enabled_congr (u := s) (by simp [hw])]; exact h5
  simp only [exec, execCover, State.pinLevel, h2', Fin.getElem_fin, h1, if_true, State.coverQual, State.qual]
  simp only [setPin_frame, h3', State.leadingEvent, State.routeArrival]
  have : (w.line.runs && w.enabled k) = true := by simp [hen]; simp [hw, h4]
  simp only [← hw, this]
  have hpos : w.position = s.position := by simp [hw, State.position]
  simp [hpos]

/-- R14: a leading edge that goes to the Tracking Table. -/
theorem cover_ls {s : State} {k : Lane} (h1 : s.pins.rst = true) (h2 : s.pins.ls[k] = false) (h3 : s.unit.lsQual[k] = .clear) (h4 : s.line.runs = true)
  (h5 : s.enabled k = true) : exec (.cover (.ls k)) s = .next (((s.setPin (.ls k) true).setQual (.ls k) .covered).leadingEdge k s.position) := by
  have h2' : s.pins.ls[k.1] = false := h2
  have h3' : s.unit.lsQual[k.1] = .clear := h3
  set w := (s.setPin (.ls k) true).setQual (.ls k) .covered with hw
  have hen : w.enabled k = true := by rw [enabled_congr (u := s) (by simp [hw])]; exact h5
  simp only [exec, execCover, State.pinLevel, h2', Fin.getElem_fin, h1, if_true, State.coverQual, State.qual]
  simp only [setPin_frame, h3', State.leadingEvent, State.routeLeading]
  have : (w.line.runs && w.enabled k) = true := by simp [hen]; simp [hw, h4]
  simp only [← hw, this]
  have hpos : w.position = s.position := by simp [hw, State.position]
  simp [hpos]

/-- R11, R40: a confirmation that finds its record. -/
theorem confirm_ls {s : State} {k : Lane} {t r m} (h1 : s.pins.rst = true) (h2 : s.unit.lsQual[k] = .clearing m s.position) (h3 : s.line.runs = true) 
  (h4 : s.enabled k = true) (h5 : s.oldest k .entering = some t) (h6 : s.record t = some r) :
  exec (.confirmPositionReached (.ls k)) s = .next ((s.setQual (.ls k) .clear).settleConfirmed k t (r.confirm m) (wrapDist r.lead m) m) := by
  simp only [Fin.getElem_fin] at h2
  simp only [exec, execConfirmPositionReached, whenUp_high h1, State.confirmReached, State.qual, Fin.getElem_fin, h2, State.trailingEvent, State.routeTrailing, State.trailingEdge, if_true]
  set w := s.setQual (.ls k) .clear with hw
  have e1 : (w.line.runs && w.enabled k) = true := by rw [enabled_congr (u := s) (by simp [hw])]; simp [hw, h3, h4]
  have e2 : w.oldest k .entering = some t := by rw [oldest_congr (u := s) (by simp [hw])]; exact h5
  have e3 : w.record t = some r := by rw [record_congr (u := s) (by simp [hw])]; exact h6
  simp [e1, e2, e3]

theorem oldest_none {s : State} {k : Lane} {st} (h : ∀ t : Tag, ∀ r ∈ s.record t, r.lane = k → r.state = st → False) : s.oldest k st = none := by
  simp only [State.oldest, List.find?_eq_none]
  intro t _
  cases hr : s.record t with
  | none => simp
  | some r => simpa using h t r hr

/-- R36: the lowest free slot. -/
theorem freeTag_some {s : State} {t : Tag} (h : s.record t = none) (h' : ∀ t' : Tag, t' < t → s.record t' ≠ none) : s.freeTag = some t := by
  simp only [State.freeTag, allTags]
  rw [List.find?_eq_some_iff_append]
  refine ⟨by simp [h], (List.finRange 24).take t.1, (List.finRange 24).drop (t.1+1), ?_, ?_⟩
  · have : t.1 < (List.finRange 24).length := by simp
    conv_lhs => rw [← List.take_append_drop t.1 (List.finRange 24)]
    rw [List.drop_eq_getElem_cons this]
    simp
  · intro a ha
    obtain ⟨i, hi, e⟩ := List.mem_iff_getElem.mp ha
    simp at hi e
    subst e
    have := h' ⟨i, by omega⟩ (by simp [Fin.lt_def]; omega)
    cases hh : s.record ⟨i, by omega⟩ with
    | none => exact absurd hh this
    | some x => simp

/-- R81: an entry on a diverter output that is present. -/
theorem bookDiverter_some {s : State} {k : Lane} {o : OutId} (h : (s.map.diverters[k]).output = some o) (t kd p) : s.bookDiverter k t kd p = s.insertEntry ⟨p, kd, o, t⟩ := by
  simp only [State.bookDiverter, h]

/-- R43: a packet goes to TO_STACK, with no record of its lane overdue. -/
theorem toStack_none {s : State} {k t r} (hno : NoneOverdue s k) (ha : ahead s.position (plus (plus r.headRef s.map.params.stackDist) (s.map.params.tol + 1)) = true) :
   s.toStack k t r = s.setRecord t { r with state := .toStack, expected := some (plus r.headRef s.map.params.stackDist) } := by
  unfold State.toStack
  apply passJamWaitFrom_none
  intro t' r' hr' hl hs p hp
  have hpos : (s.setRecord t { r with state := .toStack, expected := some (plus r.headRef s.map.params.stackDist) }).position = s.position := by simp [State.position]
  rw [hpos]
  rw [jamPosition_congr (u := s) (by simp)] at hp
  by_cases e : t' = t
  · subst e
    simp [State.record] at hr'
    subst hr'
    simp [State.jamPosition] at hp
    subst hp
    exact ha
  · have e' : ¬ t.1 = t'.1 := fun h => e (Fin.ext h.symm)
    have : s.record t' = some r' := by simpa [State.record, getElem_upd, e'] using hr'
    exact hno t' r' this hl hs p hp

/-- R43: a packet that was not in TO_STACK goes to it, if it is not overdue itself; no older record's jam is taken. -/
theorem toStack_eq {s : State} {k : Lane} {t : Tag} {r r0 : ItemRecord} (h0 : s.record t = some r0) (hst : r0.state ≠ .toStack)
   (ha : ahead s.position (plus (plus r.headRef s.map.params.stackDist) (s.map.params.tol + 1)) = true) :
   s.toStack k t r = s.setRecord t { r with state := .toStack, expected := some (plus r.headRef s.map.params.stackDist) } := by
  unfold State.toStack State.passJamWaitFrom
  set u := s.setRecord t { r with state := .toStack, expected := some (plus r.headRef s.map.params.stackDist) } with hu
  have hrt : u.record t = some { r with state := .toStack, expected := some (plus r.headRef s.map.params.stackDist) } := by
    simp [hu, State.record]
  have hro : ∀ t', t' ≠ t → u.record t' = s.record t' := by
    intro t' h
    have h' : ¬ t.1 = t'.1 := fun e => h (Fin.ext e.symm)
    simp [hu, State.record, getElem_upd, h']
  split
  · rfl
  · rename_i hne
    unfold State.passJamWait
    simp only [State.jamOverdue]
    cases ho : u.oldest k .toStack with
    | none => rfl
    | some t' =>
      have ht : t' = t := by
        by_contra htt
        apply hne
        rw [ho]
        simp only [State.oldest] at ho ⊢
        have hord : u.track.order = s.track.order := by simp [hu]
        rw [hord] at ho
        rw [List.find?_eq_some_iff_append] at ho
        obtain ⟨h1, as, bs, h2, h3⟩ := ho
        symm
        rw [List.find?_eq_some_iff_append]
        refine ⟨by rw [← hro t' htt]; exact h1, as, bs, h2, ?_⟩
        intro a haa
        by_cases e : a = t
        · subst e; simp [h0, hst]
        · rw [← hro a e]; exact h3 a haa
      subst ht
      have hm : u.map = s.map := map_congr (by simp [hu])
      have hp : u.position = s.position := by simp [hu, State.position]
      simp only [hrt, State.jamPosition, Option.map_some, hm, hp, ha]
      simp

/-- R44: a wait that does not stand here is not met. -/
theorem overlength_none {s : State} {t : Tag} (h : ∀ r ∈ s.record t, r.overWait ≠ some s.position) : s.overlength t = s := by
  unfold State.overlength
  split
  · rfl
  · rename_i r hr; simp [h r hr]

end Sys2Proof.Machine
end

