-- ==== Sys2Proof/Laws/PerInstr.lean ====
section
/-! SUPPORT. The family F, one lemma per command: a well-formed command that is a telegram spells one that stays within
the frame of R170, and whose bytes the receiver reads back as that telegram. -/

namespace Sys2Proof.Laws.F

open Sys2Proof Sys2Proof.Machine

/-- The telegram that a command row stands for, addressed to `node` (R175); pin events, waits and timers have none. -/
def spells (node : Byte) : Instr → Option Telegram
  | .encoderPulse => none
  | .cover _ => none
  | .uncover _ => none
  | .confirmPositionReached _ => none
  | .announceExpiry _ => none
  | .overlengthWait _ => none
  | .jam _ => none
  | .foldFire _ _ => none
  | .divertOpenFire _ => none
  | .divertCloseFire _ => none
  | .busyUntilReached _ => none
  | .shotTimerExpiry _ => none
  | .dischargeTimeout _ => none
  | .sackRise _ => none
  | .sclrRise _ => none
  | .drainCompletion => none
  | .coldReset _ => none
  | .telegramReceived => none
  | .telegramSent => none
  | .unknownKind src kind => some ⟨node, src, kind, []⟩
  | .announce src p => some ⟨node, src, kindAnnounce, p⟩
  | .separator src p => some ⟨node, src, kindSeparator, p⟩
  | .setupGlobals src p => some ⟨node, src, kindSetupGlobals, p⟩
  | .setupStation src p => some ⟨node, src, kindSetupStation, p⟩
  | .setupOutput src p => some ⟨node, src, kindSetupOutput, p⟩
  | .setupDiverter src p => some ⟨node, src, kindSetupDiverter, p⟩
  | .commitMap src p => some ⟨node, src, kindCommitMap, p⟩
  | .loadArticle src p => some ⟨node, src, kindLoadArticle, p⟩
  | .loadPlan src p => some ⟨node, src, kindLoadPlan, p⟩
  | .loadCustomer src p => some ⟨node, src, kindLoadCustomer, p⟩
  | .loadLanes src p => some ⟨node, src, kindLoadLanes, p⟩
  | .lockEntry src p => some ⟨node, src, kindLockEntry, p⟩
  | .lineModeReady src bcast => some ⟨if bcast then 31 else node, src, kindLineMode, [1]⟩
  | .lineModeRun src bcast => some ⟨if bcast then 31 else node, src, kindLineMode, [2]⟩
  | .lineModeDrain src bcast => some ⟨if bcast then 31 else node, src, kindLineMode, [3]⟩
  | .lineModeService src bcast => some ⟨if bcast then 31 else node, src, kindLineMode, [4]⟩
  | .lineReset src bcast p => some ⟨if bcast then 31 else node, src, kindLineReset, p⟩
  | .stackCmdClose src lane value => some ⟨node, src, kindStackCmd, [lane, 0, value]⟩
  | .stackCmdStop src lane value => some ⟨node, src, kindStackCmd, [lane, 1, value]⟩
  | .stackCmdStopAfter src lane value => some ⟨node, src, kindStackCmd, [lane, 2, value]⟩
  | .stackCmdResume src lane value => some ⟨node, src, kindStackCmd, [lane, 3, value]⟩
  | .stackCmdTarget src lane value => some ⟨node, src, kindStackCmd, [lane, 4, value]⟩
  | .clearLane src p => some ⟨node, src, kindClearLane, p⟩
  | .forceOutputSet src out => some ⟨node, src, kindForceOutput, [out, 0]⟩
  | .forceOutputClear src out => some ⟨node, src, kindForceOutput, [out, 1]⟩
  | .forceOutputShot src out => some ⟨node, src, kindForceOutput, [out, 2]⟩
  | .tallyFreeze src p => some ⟨node, src, kindTallyFreeze, p⟩
  | .tallyRead src p => some ⟨node, src, kindTallyRead, p⟩
  | .statusRead src p => some ⟨node, src, kindStatusRead, p⟩
  | .itemRead src p => some ⟨node, src, kindItemRead, p⟩
  | .rxdByte _ _ => none
  | .rstFalls => none

/-- R170, R171: what the frame asks of a telegram, and that its bytes spell it. -/
def FitsFrame (t : Telegram) : Prop :=
  t.payload.length ≤ 40 ∧ t.src.toNat ≤ 31 ∧ t.bytes.length = t.payload.length + 8
    ∧ completed t.bytes = some (t, bytes16 (checkSum t.body))

def Statement (i : Instr) : Prop :=
  ∀ node : Byte, wellFormed i = true → ∀ t ∈ spells node i, FitsFrame t

theorem fits_frame {t : Telegram} (hs : t.src.toNat ≤ 31) (hp : t.payload.length ≤ 40) : FitsFrame t := by
  have hl : (byteOf t.payload.length).toNat = t.payload.length := byteOf_toNat (by omega)
  refine ⟨hp, hs, by simp [Telegram.bytes, Telegram.body], ?_⟩
  simp [Telegram.bytes, Telegram.body, completed, hl]

theorem encoderPulse : Statement (.encoderPulse) := by simp [Statement, spells]

theorem cover (x : Sensor) : Statement (.cover x) := by simp [Statement, spells]

theorem uncover (x : Sensor) : Statement (.uncover x) := by simp [Statement, spells]

theorem confirmPositionReached (x : Sensor) : Statement (.confirmPositionReached x) := by simp [Statement, spells]

theorem announceExpiry (k : Lane) : Statement (.announceExpiry k) := by simp [Statement, spells]

theorem overlengthWait (t : Tag) : Statement (.overlengthWait t) := by simp [Statement, spells]

theorem jam (k : Lane) : Statement (.jam k) := by simp [Statement, spells]

theorem foldFire (t : Tag) (j : StepNo) : Statement (.foldFire t j) := by simp [Statement, spells]

theorem divertOpenFire (t : Tag) : Statement (.divertOpenFire t) := by simp [Statement, spells]

theorem divertCloseFire (t : Tag) : Statement (.divertCloseFire t) := by simp [Statement, spells]

theorem busyUntilReached (o : OutId) : Statement (.busyUntilReached o) := by simp [Statement, spells]

theorem shotTimerExpiry (o : OutId) : Statement (.shotTimerExpiry o) := by simp [Statement, spells]

theorem dischargeTimeout (k : Lane) : Statement (.dischargeTimeout k) := by simp [Statement, spells]

theorem sackRise (k : Lane) : Statement (.sackRise k) := by simp [Statement, spells]

theorem sclrRise (k : Lane) : Statement (.sclrRise k) := by simp [Statement, spells]

theorem drainCompletion : Statement (.drainCompletion) := by simp [Statement, spells]

theorem coldReset (na : BitVec 5) : Statement (.coldReset na) := by simp [Statement, spells]

theorem telegramReceived : Statement (.telegramReceived) := by simp [Statement, spells]

theorem telegramSent : Statement (.telegramSent) := by simp [Statement, spells]

theorem unknownKind (src kind : Byte) : Statement (.unknownKind src kind) := by
  intro node hw t ht
  simp only [wellFormed, sourceFits, Bool.and_eq_true, decide_eq_true_eq] at hw
  simp only [spells, Option.mem_def, Option.some.injEq] at ht
  subst ht
  exact fits_frame hw.1 (by simp)

theorem announce (src : Byte) (p : List Byte) : Statement (.announce src p) := by
  intro node hw t ht
  simp only [wellFormed, sourceFits, payloadFits, Bool.and_eq_true, decide_eq_true_eq] at hw
  simp only [spells, Option.mem_def, Option.some.injEq] at ht
  subst ht
  exact fits_frame hw.1 hw.2

theorem separator (src : Byte) (p : List Byte) : Statement (.separator src p) := by
  intro node hw t ht
  simp only [wellFormed, sourceFits, payloadFits, Bool.and_eq_true, decide_eq_true_eq] at hw
  simp only [spells, Option.mem_def, Option.some.injEq] at ht
  subst ht
  exact fits_frame hw.1 hw.2

theorem setupGlobals (src : Byte) (p : List Byte) : Statement (.setupGlobals src p) := by
  intro node hw t ht
  simp only [wellFormed, sourceFits, payloadFits, Bool.and_eq_true, decide_eq_true_eq] at hw
  simp only [spells, Option.mem_def, Option.some.injEq] at ht
  subst ht
  exact fits_frame hw.1 hw.2

theorem setupStation (src : Byte) (p : List Byte) : Statement (.setupStation src p) := by
  intro node hw t ht
  simp only [wellFormed, sourceFits, payloadFits, Bool.and_eq_true, decide_eq_true_eq] at hw
  simp only [spells, Option.mem_def, Option.some.injEq] at ht
  subst ht
  exact fits_frame hw.1 hw.2

theorem setupOutput (src : Byte) (p : List Byte) : Statement (.setupOutput src p) := by
  intro node hw t ht
  simp only [wellFormed, sourceFits, payloadFits, Bool.and_eq_true, decide_eq_true_eq] at hw
  simp only [spells, Option.mem_def, Option.some.injEq] at ht
  subst ht
  exact fits_frame hw.1 hw.2

theorem setupDiverter (src : Byte) (p : List Byte) : Statement (.setupDiverter src p) := by
  intro node hw t ht
  simp only [wellFormed, sourceFits, payloadFits, Bool.and_eq_true, decide_eq_true_eq] at hw
  simp only [spells, Option.mem_def, Option.some.injEq] at ht
  subst ht
  exact fits_frame hw.1 hw.2

theorem commitMap (src : Byte) (p : List Byte) : Statement (.commitMap src p) := by
  intro node hw t ht
  simp only [wellFormed, sourceFits, payloadFits, Bool.and_eq_true, decide_eq_true_eq] at hw
  simp only [spells, Option.mem_def, Option.some.injEq] at ht
  subst ht
  exact fits_frame hw.1 hw.2

theorem loadArticle (src : Byte) (p : List Byte) : Statement (.loadArticle src p) := by
  intro node hw t ht
  simp only [wellFormed, sourceFits, payloadFits, Bool.and_eq_true, decide_eq_true_eq] at hw
  simp only [spells, Option.mem_def, Option.some.injEq] at ht
  subst ht
  exact fits_frame hw.1 hw.2

theorem loadPlan (src : Byte) (p : List Byte) : Statement (.loadPlan src p) := by
  intro node hw t ht
  simp only [wellFormed, sourceFits, payloadFits, Bool.and_eq_true, decide_eq_true_eq] at hw
  simp only [spells, Option.mem_def, Option.some.injEq] at ht
  subst ht
  exact fits_frame hw.1 hw.2

theorem loadCustomer (src : Byte) (p : List Byte) : Statement (.loadCustomer src p) := by
  intro node hw t ht
  simp only [wellFormed, sourceFits, payloadFits, Bool.and_eq_true, decide_eq_true_eq] at hw
  simp only [spells, Option.mem_def, Option.some.injEq] at ht
  subst ht
  exact fits_frame hw.1 hw.2

theorem loadLanes (src : Byte) (p : List Byte) : Statement (.loadLanes src p) := by
  intro node hw t ht
  simp only [wellFormed, sourceFits, payloadFits, Bool.and_eq_true, decide_eq_true_eq] at hw
  simp only [spells, Option.mem_def, Option.some.injEq] at ht
  subst ht
  exact fits_frame hw.1 hw.2

theorem lockEntry (src : Byte) (p : List Byte) : Statement (.lockEntry src p) := by
  intro node hw t ht
  simp only [wellFormed, sourceFits, payloadFits, Bool.and_eq_true, decide_eq_true_eq] at hw
  simp only [spells, Option.mem_def, Option.some.injEq] at ht
  subst ht
  exact fits_frame hw.1 hw.2

theorem lineModeReady (src : Byte) (bcast : Bool) : Statement (.lineModeReady src bcast) := by
  intro node hw t ht
  simp only [wellFormed, sourceFits, decide_eq_true_eq] at hw
  simp only [spells, Option.mem_def, Option.some.injEq] at ht
  subst ht
  exact fits_frame hw (by simp)

theorem lineModeRun (src : Byte) (bcast : Bool) : Statement (.lineModeRun src bcast) := by
  intro node hw t ht
  simp only [wellFormed, sourceFits, decide_eq_true_eq] at hw
  simp only [spells, Option.mem_def, Option.some.injEq] at ht
  subst ht
  exact fits_frame hw (by simp)

theorem lineModeDrain (src : Byte) (bcast : Bool) : Statement (.lineModeDrain src bcast) := by
  intro node hw t ht
  simp only [wellFormed, sourceFits, decide_eq_true_eq] at hw
  simp only [spells, Option.mem_def, Option.some.injEq] at ht
  subst ht
  exact fits_frame hw (by simp)

theorem lineModeService (src : Byte) (bcast : Bool) : Statement (.lineModeService src bcast) := by
  intro node hw t ht
  simp only [wellFormed, sourceFits, decide_eq_true_eq] at hw
  simp only [spells, Option.mem_def, Option.some.injEq] at ht
  subst ht
  exact fits_frame hw (by simp)

theorem lineReset (src : Byte) (bcast : Bool) (p : List Byte) : Statement (.lineReset src bcast p) := by
  intro node hw t ht
  simp only [wellFormed, sourceFits, payloadFits, Bool.and_eq_true, decide_eq_true_eq] at hw
  simp only [spells, Option.mem_def, Option.some.injEq] at ht
  subst ht
  exact fits_frame hw.1 hw.2

theorem stackCmdClose (src lane value : Byte) : Statement (.stackCmdClose src lane value) := by
  intro node hw t ht
  simp only [wellFormed, sourceFits, decide_eq_true_eq] at hw
  simp only [spells, Option.mem_def, Option.some.injEq] at ht
  subst ht
  exact fits_frame hw (by simp)

theorem stackCmdStop (src lane value : Byte) : Statement (.stackCmdStop src lane value) := by
  intro node hw t ht
  simp only [wellFormed, sourceFits, decide_eq_true_eq] at hw
  simp only [spells, Option.mem_def, Option.some.injEq] at ht
  subst ht
  exact fits_frame hw (by simp)

theorem stackCmdStopAfter (src lane value : Byte) : Statement (.stackCmdStopAfter src lane value) := by
  intro node hw t ht
  simp only [wellFormed, sourceFits, decide_eq_true_eq] at hw
  simp only [spells, Option.mem_def, Option.some.injEq] at ht
  subst ht
  exact fits_frame hw (by simp)

theorem stackCmdResume (src lane value : Byte) : Statement (.stackCmdResume src lane value) := by
  intro node hw t ht
  simp only [wellFormed, sourceFits, decide_eq_true_eq] at hw
  simp only [spells, Option.mem_def, Option.some.injEq] at ht
  subst ht
  exact fits_frame hw (by simp)

theorem stackCmdTarget (src lane value : Byte) : Statement (.stackCmdTarget src lane value) := by
  intro node hw t ht
  simp only [wellFormed, sourceFits, decide_eq_true_eq] at hw
  simp only [spells, Option.mem_def, Option.some.injEq] at ht
  subst ht
  exact fits_frame hw (by simp)

theorem clearLane (src : Byte) (p : List Byte) : Statement (.clearLane src p) := by
  intro node hw t ht
  simp only [wellFormed, sourceFits, payloadFits, Bool.and_eq_true, decide_eq_true_eq] at hw
  simp only [spells, Option.mem_def, Option.some.injEq] at ht
  subst ht
  exact fits_frame hw.1 hw.2

theorem forceOutputSet (src out : Byte) : Statement (.forceOutputSet src out) := by
  intro node hw t ht
  simp only [wellFormed, sourceFits, decide_eq_true_eq] at hw
  simp only [spells, Option.mem_def, Option.some.injEq] at ht
  subst ht
  exact fits_frame hw (by simp)

theorem forceOutputClear (src out : Byte) : Statement (.forceOutputClear src out) := by
  intro node hw t ht
  simp only [wellFormed, sourceFits, decide_eq_true_eq] at hw
  simp only [spells, Option.mem_def, Option.some.injEq] at ht
  subst ht
  exact fits_frame hw (by simp)

theorem forceOutputShot (src out : Byte) : Statement (.forceOutputShot src out) := by
  intro node hw t ht
  simp only [wellFormed, sourceFits, decide_eq_true_eq] at hw
  simp only [spells, Option.mem_def, Option.some.injEq] at ht
  subst ht
  exact fits_frame hw (by simp)

theorem tallyFreeze (src : Byte) (p : List Byte) : Statement (.tallyFreeze src p) := by
  intro node hw t ht
  simp only [wellFormed, sourceFits, payloadFits, Bool.and_eq_true, decide_eq_true_eq] at hw
  simp only [spells, Option.mem_def, Option.some.injEq] at ht
  subst ht
  exact fits_frame hw.1 hw.2

theorem tallyRead (src : Byte) (p : List Byte) : Statement (.tallyRead src p) := by
  intro node hw t ht
  simp only [wellFormed, sourceFits, payloadFits, Bool.and_eq_true, decide_eq_true_eq] at hw
  simp only [spells, Option.mem_def, Option.some.injEq] at ht
  subst ht
  exact fits_frame hw.1 hw.2

theorem statusRead (src : Byte) (p : List Byte) : Statement (.statusRead src p) := by
  intro node hw t ht
  simp only [wellFormed, sourceFits, payloadFits, Bool.and_eq_true, decide_eq_true_eq] at hw
  simp only [spells, Option.mem_def, Option.some.injEq] at ht
  subst ht
  exact fits_frame hw.1 hw.2

theorem itemRead (src : Byte) (p : List Byte) : Statement (.itemRead src p) := by
  intro node hw t ht
  simp only [wellFormed, sourceFits, payloadFits, Bool.and_eq_true, decide_eq_true_eq] at hw
  simp only [spells, Option.mem_def, Option.some.injEq] at ht
  subst ht
  exact fits_frame hw.1 hw.2

theorem rxdByte (b : Byte) (stopOk : Bool) : Statement (.rxdByte b stopOk) := by simp [Statement, spells]

theorem rstFalls : Statement (.rstFalls) := by simp [Statement, spells]

end Sys2Proof.Laws.F
end

