-- ==== Sys2Proof/Laws/Reset.lean ====
section
/-! SUPPORT. What a LINE_RESET comes to: one stacker, the four in lane order, and the whole, whoever asks for it. -/

namespace Sys2Proof.Machine

open Sys2Proof.Safety

/-! ## One stacker -/

/-- R129: the stacker that a LINE_RESET leaves of `st`. -/
def Stacker.afterReset (st : Stacker) : Stacker :=
  ⟨.collecting, none, [], false, st.override, none, if st.stack.isSome then st.serial + 1 else st.serial,
    if st.stack.isSome then 0 else min 65535 (st.unplaced + st.shelf.length)⟩

/-- R115, R129: the STACK_DONE note of one lane. -/
def State.resetNote (s : State) (k : Lane) : Option Note :=
  let st := s.stackers[k]
  st.stack.map fun o => .stackDone k st.serial o.key o.pieces o.strays o.target o.batchStart .lineReset
    (min 65535 (st.unplaced + st.shelf.length))

/-- R131: the credit of one lane. -/
def State.resetCredit (s : State) (t : Tally) (k : Lane) : Tally :=
  match (s.stackers[k]).stack with
  | some o => t.credit o.key o.pieces 1 0
  | none => t

/-- A count of unplaced pieces holds at its limit. -/
theorem holdAt65535_eq (n : Nat) : holdAt65535 n = min 65535 n := by simp only [holdAt65535]; split <;> omega

/-- Notes leave the node address. -/
theorem emits_node (l : List Note) (s : State) : (l.foldl State.emit s).node = s.node := foldl_keeps (fun s => s.node) _ (fun s a => by simp) _ _
/-- Notes leave the Setup Store. -/
theorem emits_setup (l : List Note) (s : State) : (l.foldl State.emit s).setup = s.setup := foldl_keeps (fun s => s.setup) _ (fun s a => by simp) _ _

/-- R129: what the reset of one stacker does: its note, its credit, and the stacker it leaves. -/
theorem resetStacker_eq (s : State) (k : Lane) :
   s.resetStacker k = { (State.resetNote s k).toList.foldl State.emit s with tally := State.resetCredit s s.tally k, stackers := upd s.stackers k (Stacker.afterReset s.stackers[k]) } := by
  unfold State.resetStacker
  cases h : (s.stackers[k]).stack with
  | none =>
    have h' : s.stackers[k.1].stack = none := h
    have e : ((s.setStacker k (s.stackers[k]).dumpShelf).stackers[k]).stack = none := by simp [Stacker.dumpShelf, h']
    rw [closeStack_empty e]
    apply state_ext <;> simp [State.resetNote, State.resetCredit, h', Stacker.afterReset, Stacker.dumpShelf, Stacker.resetPhase, holdAt65535_eq, upd_upd]
  | some o =>
    have h' : s.stackers[k.1].stack = some o := h
    have e : ((s.setStacker k (s.stackers[k]).dumpShelf).stackers[k]).stack = some o := by simp [Stacker.dumpShelf, h']
    rw [closeStack_open e]
    apply state_ext <;> simp [State.resetNote, State.resetCredit, h', Stacker.afterReset, Stacker.dumpShelf, Stacker.resetPhase, holdAt65535_eq, Stacker.closed, State.credit, upd_upd]
    · exact (emit_congr (by simp) (by simp) (by simp) (by simp) _).2
    · exact (emit_congr (by simp) (by simp) (by simp) (by simp) _).1

/-- The same of several stackers, in the order given. -/
theorem resetStackers_fold (s : State) : ∀ (l : List Lane), l.Nodup → ∀ u : State, (∀ k ∈ l, u.stackers[k] = s.stackers[k]) →
   (l.foldl State.resetStacker u).link = ((l.filterMap (State.resetNote s)).foldl State.emit u).link
   ∧ (l.foldl State.resetStacker u).loss = ((l.filterMap (State.resetNote s)).foldl State.emit u).loss
   ∧ (l.foldl State.resetStacker u).tally = l.foldl (State.resetCredit s) u.tally
   ∧ (∀ k : Lane, (l.foldl State.resetStacker u).stackers[k] = if k ∈ l then Stacker.afterReset s.stackers[k] else u.stackers[k]) := by
  intro l
  induction l with
  | nil => intro _ u _; simp
  | cons a l ih =>
    intro hn u hu
    have ha : u.stackers[a] = s.stackers[a] := hu a (by simp)
    have ha' : u.stackers[a.1] = s.stackers[a.1] := ha
    have hnt : State.resetNote u a = State.resetNote s a := by simp only [State.resetNote, ha]
    have hcr : State.resetCredit u u.tally a = State.resetCredit s u.tally a := by simp only [State.resetCredit, ha]
    rw [List.nodup_cons] at hn
    have step : u.resetStacker a = { (State.resetNote s a).toList.foldl State.emit u with tally := State.resetCredit s u.tally a, stackers := upd u.stackers a (Stacker.afterReset s.stackers[a]) } := by
      rw [resetStacker_eq, hnt, hcr, ha]
    have hother : ∀ k : Lane, k ≠ a → (u.resetStacker a).stackers[k] = u.stackers[k] := by
      intro k hk
      have : ¬ a.1 = k.1 := fun e => hk (Fin.ext e.symm)
      rw [step]; simp [getElem_upd, this]
    have := ih hn.2 (u.resetStacker a) (fun k hk => by
      rw [hother k (fun e => hn.1 (e ▸ hk))]; exact hu k (by simp [hk]))
    obtain ⟨i1, i2, i3, i4⟩ := this
    simp only [List.foldl_cons]
    have hem := emits_congr (l.filterMap (State.resetNote s)) (s := u.resetStacker a) (u := (State.resetNote s a).toList.foldl State.emit u) (by rw [step]) (by rw [step]) (by rw [step]) (by rw [step])
    have hfm : ((a :: l).filterMap (State.resetNote s)) = (State.resetNote s a).toList ++ l.filterMap (State.resetNote s) := by
      rw [List.filterMap_cons]; cases State.resetNote s a <;> rfl
    refine ⟨?_, ?_, ?_, ?_⟩
    · rw [i1, hfm, List.foldl_append]; exact hem.1
    · rw [i2, hfm, List.foldl_append]; exact hem.2
    · rw [i3, step]
    · intro k
      rw [i4]
      by_cases hk : k ∈ l
      · simp [hk]
      · by_cases e : k = a
        · subst e; rw [step]; simp [hk]
        · rw [if_neg hk, hother k e]; simp [hk, e]

/-- R164: the reset of every block: the notes and the credits in lane order, and the blocks emptied. -/
theorem resetBlocks_eq (s : State) (u : State) (hu : u = (((s.discardAll).setSched .cold).releaseOutputs).setQueues (Vector.replicate 4 [])) :
   let v := s.resetBlocks
   v.link = ((resetNotes s).foldl State.emit s).link ∧ v.loss = ((resetNotes s).foldl State.emit s).loss ∧ v.tally = resetTally s
   ∧ (∀ k : Lane, v.stackers[k] = Stacker.afterReset s.stackers[k]) ∧ v = { u with link := v.link, loss := v.loss, tally := v.tally, stackers := v.stackers } := by
  have h := resetStackers_fold s allLanes (List.nodup_finRange 4) u (by intro k _; rw [hu]; simp [State.releaseOutputs])
  have e : s.resetBlocks = allLanes.foldl State.resetStacker u := by rw [hu]; rfl
  dsimp only
  rw [e]
  have hem := emits_congr (resetNotes s) (s := u) (u := s) (by rw [hu]; simp) (by rw [hu]; simp) (by rw [hu]; simp) (by rw [hu]; simp)
  refine ⟨?_, ?_, ?_, ?_, ?_⟩
  · rw [h.1]; exact hem.1
  · rw [h.2.1]; exact hem.2
  · rw [h.2.2.1, hu]; rfl
  · intro k; rw [h.2.2.2 k]; simp [allLanes]
  · have : allLanes.foldl State.resetStacker u = u.resetStackers := rfl
    rw [this]
    apply state_ext <;> simp

/-- R164: a whole LINE_RESET, with whatever `reply` it is answered. -/
theorem lineResetWith_eq (s : State) (reply : State → State) (hr : ∀ v, reply v = { v with link := (reply v).link, loss := (reply v).loss }) 
   (hcong : ∀ v w : State, v.link = w.link → v.loss = w.loss → v.node = w.node → v.setup = w.setup → (reply v).link = (reply w).link ∧ (reply v).loss = (reply w).loss) :
   ResetFrom s (s.lineResetWith reply) ∧ (s.lineResetWith reply).freeIndex = s.freeIndex 
   ∧ (let v := reply ((resetNotes s).foldl State.emit s)
      let w := if s.line = resetLine s then v else v.emit (.state s.line (resetLine s) .lineReset s.position)
      (s.lineResetWith reply).link = w.link ∧ (s.lineResetWith reply).loss = w.loss) := by
  have hb := resetBlocks_eq s _ rfl
  obtain ⟨b1, b2, b3, b4, b5⟩ := hb
  set v := s.resetBlocks with hv
  have hl : s.lineAfterReset = resetLine s := rfl
  have hx : s.lineResetWith reply = { (((s.discardAll).setSched .cold).releaseOutputs).setQueues (Vector.replicate 4 []) with 
      tally := resetTally s, stackers := v.stackers, line := resetLine s, link := (s.lineResetWith reply).link, loss := (s.lineResetWith reply).loss } := by
    unfold State.lineResetWith
    simp only [hl, ← hv]
    split
    · have e := hr v
      apply state_ext <;> simp
      all_goals (try rw [e]) <;> simp
      all_goals (try rw [b5]) <;> simp [b3]
    · have e := hr v
      apply state_ext <;> simp
      all_goals (try rw [e]) <;> simp
      all_goals (try rw [b5]) <;> simp [b3]
  refine ⟨?_, ?_, ?_⟩
  · rw [hx]
    refine ⟨rfl, ?_, ?_, ?_, ?_, ?_, ?_, rfl, ?_, ?_, ?_, ?_, ?_⟩
    · intro t; simp [State.record, State.discardAll, State.releaseOutputs]
    · simp [State.discardAll]
    · intro k; simp [State.discardAll]
    · simp [Schedule.cold]
    · intro o; simp [Schedule.cold, State.releaseOutputs, OutputRecord.released, State.discardAll]
    · intro k; exact ⟨by simp, b4 k⟩
    all_goals simp
  · rw [hx]; simp
  · dsimp only
    have hc := hcong v ((resetNotes s).foldl State.emit s) b1 b2 (by rw [b5]; simp [emits_node]) (by rw [b5]; simp [emits_setup])
    have hn : ∀ x, (reply x).node = x.node ∧ (reply x).setup = x.setup := by intro x; rw [hr x]; exact ⟨rfl, rfl⟩
    unfold State.lineResetWith
    simp only [hl, ← hv]
    split
    · simpa using hc
    · exact emit_congr (by simpa using hc.1) (by simpa using hc.2) (by simp [hn]; rw [b5]; simp [emits_node]) (by simp [hn]; rw [b5]; simp [emits_setup]) _

end Sys2Proof.Machine
end

