-- ==== Sys2Proof/Laws/Stacks.lean ====
section
/-! SUPPORT. What the drain close of one stacker comes to, and an unplaced piece that stops its lane; what the lane
counts count. -/

namespace Sys2Proof.Laws

open Sys2Proof Sys2Proof.Machine Sys2Proof.Safety

/-! ## Drain closes (R115, R128, R131) -/

/-- The note of the drain close of a lane, if its stacker is one to close. -/
def drainNote (s : State) (k : Lane) : Option Note :=
  let st := s.stackers[k]
  if st.phase = .collecting then
    st.stack.map fun o => .stackDone k st.serial o.key o.pieces o.strays o.target o.batchStart .drain st.unplaced
  else none

/-- The tally after the drain close of a lane, if its stacker is one to close. -/
def drainCredit (s : State) (t : Tally) (k : Lane) : Tally :=
  match (s.stackers[k]).phase, (s.stackers[k]).stack with
  | .collecting, some o => t.credit o.key o.pieces 1 0
  | _, _ => t

/-- What a drain close leaves of a stacker. -/
def drained (st : Stacker) : Stacker :=
  if st.phase = .collecting ∧ st.stack.isSome then
    { st with phase := .offered, stack := none, serial := st.serial + 1, unplaced := 0 }
  else st

theorem drainNotes_eq (s : State) : drainNotes s = allLanes.filterMap (drainNote s) := rfl

theorem drainTally_eq (s : State) : drainTally s = allLanes.foldl (drainCredit s) s.tally := rfl

/-- In DRAIN with an empty table: one lane's close, or nothing where its stacker has none to close. -/
theorem drainClose_eq (s : State) (k : Lane) (h1 : s.line = .drain) (h2 : s.tableEmpty = true) :
    s.drainClose k = { (drainNote s k).toList.foldl State.emit s with
      tally := drainCredit s s.tally k, stackers := upd s.stackers k (drained s.stackers[k]) } := by
  unfold State.drainClose
  by_cases hp : s.stackers[k.1].phase = .collecting
  · cases hs : s.stackers[k.1].stack with
    | none =>
      rw [if_neg (by simp [hs])]
      apply state_ext <;> simp [drainNote, drainCredit, drained, hs]
    | some o =>
      rw [if_pos ⟨h1, h2, hp, by simp [hs]⟩, closeStack_open hs]
      apply state_ext <;> simp [drainNote, drainCredit, drained, hs, hp, Stacker.closed, State.credit]
  · rw [if_neg (by simp [hp])]
    have : drainCredit s s.tally k = s.tally := by unfold drainCredit; split <;> simp_all
    apply state_ext <;> simp [drainNote, this, drained, hp]

/-! ## A piece that finds no place (R112 to R114, R166) -/

/-- The state that an unplaced piece leaves as it stops its lane. -/
def shelfFaulted (v : State) (k : Lane) (kind : FaultKind) (p : Pos) : State :=
  let st := v.stackers[k]
  let u := v.emit (.fault k kind p)
  { v with
    stackers := upd v.stackers k { st with
      phase := .stopped, timer := none, pausePending := false, unplaced := min 65535 (st.unplaced + 1) }
    track := (v.convertLane k).track, sched := (v.convertLane k).sched, link := u.link, loss := u.loss }

/-- With no record of the lane overdue before, none is after it. -/
theorem shelfFault_eq {v : State} {k : Lane} (kind : FaultKind) (p : Pos) (hn : NoneOverdue v k)
    (hp : (v.stackers[k]).phase ≠ .stopped) :
    v.shelfFault k kind p = shelfFaulted v k kind p ∧ NoneOverdue (v.shelfFault k kind p) k := by
  have hp' : ¬ (v.stackers[k.1]).phase = .stopped := hp
  have e : v.shelfFault k kind p = shelfFaulted v k kind p := by
    have a : ∀ st, Agree (v.setStacker k st) v := fun st => by simp [Agree, State.position]
    have b := fun st => convertLane_agree (a st) k
    have c := fun st => emit_congr (s := v.setStacker k st) (u := v) (by simp) (by simp) (by simp) (by simp) (.fault k kind p)
    unfold State.shelfFault
    rw [raiseFault_eq _ _ _ _ ((NoneOverdue_agree (a _) k).mpr hn)]
    simp only [Agree, setStacker_eq] at b c
    apply state_ext <;> simp [shelfFaulted, stopped, hp', holdAt65535_eq, upd_upd, b, c]
  refine ⟨e, ?_⟩
  rw [e]
  refine (NoneOverdue_agree ?_ k).mp (NoneOverdue_convert (j := k) hn)
  simp [Agree, shelfFaulted, State.position]

/-! ## Rejects and counts (R49, R54, R132) -/

/-- What follows the retirement of a rejected record. -/
theorem drainCloses_credit_emit (q : State) (key : Key) (n : Note) :
    ((q.drainCloses).credit key 0 0 1).emit n = { q with
      stackers := q.drainCloses.stackers, tally := q.drainCloses.tally.credit key 0 0 1
      link := (q.drainCloses.emit n).link, loss := (q.drainCloses.emit n).loss } := by
  have h := emit_congr (s := q.drainCloses.credit key 0 0 1) (u := q.drainCloses) (by simp) (by simp) (by simp) (by simp) n
  refine state_ext ?_ ?_ ?_ ?_ ?_ h.2 ?_ ?_ ?_ ?_ ?_ ?_ ?_ h.1 ?_
  all_goals simp only [emit_frame, credit_frame, drainCloses_frame]
  rfl

/-- Counting slots is counting tags. -/
theorem countP_slots (s : State) (p : ItemRecord → Bool) :
    s.track.slots.toList.countP (fun r => r.any p) = (allTags.filter (fun t => (s.record t).any p)).length := by
  have h : s.track.slots.toList = allTags.map s.record := by
    apply List.ext_getElem
    · simp [allTags]
    · intro i h1 h2
      simp [allTags, State.record]
  rw [h, List.countP_map, List.countP_eq_length_filter]
  rfl

end Sys2Proof.Laws
end

