-- ==== Sys2Proof/Tests/Slice0.lean ====
section
/-! SUPPORT. Tests: commands on small states against the spec's worked sequences, the WellFormed smoke, and for every
statement with hypotheses a state and operands that meet them (the theorems named witness_…). -/

namespace Sys2Proof.Tests

open Sys2Proof Sys2Proof.Machine Sys2Proof.Safety

/-! ## The folder of the worked sequences (Sections 3.4, 4.8, 5.7, 7.10, 9.6) -/

def folderMap : StationMap :=
  { globals := some ⟨1, 12, 20, 64, 3000, 6000, 40, 1, 20⟩
    stations := #v[.absent, .lane 2600 150 #v[some 0, some 1, some 2, some 3], .absent, .shared 3900 250 8,
      .shared 4700 200 9, .absent]
    outputs := tabulate fun o =>
      if o.1 ≤ 3 ∨ o = 8 ∨ o = 9 then some ⟨.pulse, 60⟩ else if 12 ≤ o.1 then some ⟨.latch, 0⟩ else none
    diverters := #v[⟨some 12, 5000, 40, 60, 3, 0⟩, ⟨some 13, 5000, 40, 60, 3, 0⟩, ⟨some 14, 5000, 40, 60, 3, 0⟩,
      ⟨some 15, 5000, 40, 60, 3, 0⟩] }

def sheetPlan : List PlanStep := [⟨1, 1, 2, 0⟩, ⟨3, 1, 3, 6⟩, ⟨4, 1, 2, -2⟩]

/-- The folder in RUN at a position, with articles 3 (folded) and 7 (flat), and all lanes enabled. -/
def folder (p : Nat) : State :=
  { State.reset with
    line := .run
    unit := { PositionUnit.cold with position := BitVec.ofNat 24 p, confirmSpan := 12 }
    setup := { Setup.cold with
      staging := folderMap
      committed := some folderMap
      articles := upd (upd (Vector.replicate 64 none) 3 (some ⟨.stack, 5, 1700, 2400, 10⟩)) 7 (some ⟨.flat, 0, 100, 900, 20⟩)
      plans := upd (Vector.replicate 16 none) 5 (some sheetPlan)
      lanes := some ⟨.quad, 15, .stack, 7⟩ }
    outs := tabulate folderMap.outputAt }

/-- The sheet of Section 3.4 after its leading edge. -/
def entering : ItemRecord :=
  { lane := 0, state := .entering, article := 3, customer := some 4650, group := 3, anonymous := false
    startsBatch := false, route := .stack, reason := none, lead := 100000, trail := none, len := none
    min := 1700, max := 2400, target := 10
    steps := [⟨1, 1, 2, 0, none, none, .pending⟩, ⟨3, 1, 3, 6, none, none, .pending⟩, ⟨4, 1, 2, -2, none, none, .pending⟩]
    headRef := 100000, curLen := none, expected := none, overWait := some 104096 }

/-- The same sheet after its confirmation. -/
def folding : ItemRecord :=
  { entering with
    state := .folding, trail := some 101830, len := some 1830, curLen := some 1830, overWait := none
    steps := [⟨1, 1, 2, 0, some 915, some 103515, .pending⟩, ⟨3, 1, 3, 6, some 311, some 105126, .pending⟩,
      ⟨4, 1, 2, -2, some 300, some 106226, .pending⟩] }

/-- With its last fold still to come. -/
def lastFold : ItemRecord :=
  { folding with
    steps := [⟨1, 1, 2, 0, some 915, some 103515, .fired⟩, ⟨3, 1, 3, 6, some 311, some 105126, .fired⟩,
      ⟨4, 1, 2, -2, some 300, some 106226, .pending⟩]
    headRef := 101226, curLen := some 604 }

/-- After it. -/
def toStack : ItemRecord :=
  { lastFold with
    state := .toStack, headRef := 101526, curLen := some 304, expected := some 107526
    steps := [⟨1, 1, 2, 0, some 915, some 103515, .fired⟩, ⟨3, 1, 3, 6, some 311, some 105126, .fired⟩,
      ⟨4, 1, 2, -2, some 300, some 106226, .fired⟩] }

/-- A rejected piece on its way to its diverter. -/
def rejected : ItemRecord := { toStack with state := .diverting, reason := some .laneStopped, startsBatch := true }

/-- The state with a record in a slot, behind the others. -/
def holding (t : Tag) (r : ItemRecord) (s : State) : State :=
  { s with track := { s.track with slots := upd s.track.slots t (some r), order := s.track.order ++ [t] } }

def stacking (k : Lane) (st : Stacker) (s : State) : State := { s with stackers := upd s.stackers k st }
def queued (k : Lane) (q : List QueueEntry) (s : State) : State := { s with queues := upd s.queues k q }
def scheduled (es : List FireEntry) (s : State) : State := { s with sched := { s.sched with entries := es } }

/-- The sensors of lane 0 with a qualifier and a level each. -/
def sensing (ls es : Qualifier) (a b : Bool) (s : State) : State :=
  { s with
    unit := { s.unit with lsQual := upd s.unit.lsQual 0 ls, esQual := upd s.unit.esQual 0 es }
    pins := { s.pins with ls := upd s.pins.ls 0 a, es := upd s.pins.es 0 b } }

/-- A record in every slot. -/
def fullTable (r : ItemRecord) (s : State) : State :=
  { s with track := { s.track with slots := Vector.replicate 24 (some r), order := List.finRange 24 } }

def after (c : Instr) (s : State) : Option State :=
  match exec c s with
  | .next u => some u
  | _ => none

def seen {α : Type} (c : Instr) (s : State) (f : State → α) : Option α := (after c s).map f

/-! ## WellFormed -/

theorem test_wellFormed_payload_of_41 : wellFormed (.announce 1 (List.replicate 41 0)) = false := by decide
theorem test_wellFormed_payload_of_40 : wellFormed (.announce 1 (List.replicate 40 0)) = true := by decide
theorem test_wellFormed_source_of_32 : wellFormed (.stackCmdClose 32 0 0) = false := by decide
theorem test_wellFormed_source_of_31 : wellFormed (.stackCmdClose 31 0 0) = true := by decide
theorem test_wellFormed_known_kind : wellFormed (.unknownKind 1 0x53) = false := by decide
theorem test_wellFormed_unknown_kind : wellFormed (.unknownKind 1 0x54) = true := by decide
theorem test_no_word_spells_a_command : decodeTableWord 8 0xD3 = none := by decide

/-! ## The belt (Section 1.2) -/

set_option maxRecDepth 4000 in
theorem test_pulse_below_the_prescale :
    seen .encoderPulse { folder 100 with unit := { (folder 100).unit with prescale := 4, residue := 2 } }
      (fun u => (u.unit.residue, u.unit.position)) = some (3, 100) := by decide

set_option maxRecDepth 4000 in
theorem test_pulse_wraps_the_position :
    seen .encoderPulse (folder 16777215) (fun u => (u.unit.residue, u.unit.position)) = some (0, 0) := by decide

/-! ## Sensors (Section 1.4, the sheet with a hole) -/

theorem test_cover_in_clearing_is_a_hole :
    seen (.cover (.ls 0)) (sensing (.clearing 100640 100652) .clear false false (folder 100646))
      (fun u => (u.unit.lsQual[(0 : Lane)], u.track.order)) = some (.covered, []) := by decide

/-- Section 2.8, third napkin: separator, then announcement; record at the edge. -/
theorem test_cover_binds_the_queue :
    seen (.cover (.ls 1)) (queued 1 [.separator 50900, .announce 7 7000 51000] (folder 52900))
      (fun u => (u.record 0).map (fun r => (r.startsBatch, r.article, r.customer, r.lead)))
      = some (some (true, 7, some 7000, 52900)) := by decide

theorem test_uncover_sets_mark_and_confirm :
    seen (.uncover (.ls 2)) { folder 16777210 with
        unit := { (folder 16777210).unit with lsQual := Vector.replicate 4 .covered }
        pins := { (folder 16777210).pins with ls := Vector.replicate 4 true } }
      (fun u => u.unit.lsQual[(2 : Lane)]) = some (.clearing 16777210 6) := by decide

/-- Section 4.8: offsets and fire positions. -/
theorem test_confirmation_computes_the_sheet :
    seen (.confirmPositionReached (.ls 0)) (holding 0 entering (sensing (.clearing 101830 101842) .clear false false (folder 101842)))
      (fun u => (u.record 0).map (fun r => (r.state, r.len, r.steps)))
      = some (some (.folding, some 1830, folding.steps)) := by decide

theorem test_confirmation_books_the_sheet :
    seen (.confirmPositionReached (.ls 0)) (holding 0 entering (sensing (.clearing 101830 101842) .clear false false (folder 101842)))
      (fun u => u.sched.entries.map (fun e => (e.pos, e.out))) = some [(103515, 0), (105126, 8), (106226, 9)] := by decide

/-! ## Waits and fires (Section 3.4) -/

theorem test_expiry_removes_the_head :
    seen (.announceExpiry 1) (queued 1 [.announce 12 7000 53600] (folder 56600))
      (fun u => (u.queues[(1 : Lane)], u.link.reports.map (fun t => t.payload)))
      = some ([], [[1, 4, 0, 1, 12, 0x1B, 0x58, 0, 0xD1, 0x60, 0, 0xDD, 0x18]]) := by decide

theorem test_overlength_of_a_covered_piece :
    seen (.overlengthWait 0) (holding 0 entering (sensing .covered .clear true false (folder 104096)))
      (fun u => ((u.record 0).map (fun r => r.reason), u.sched.entries))
      = some (some (some .oversize), [⟨104960, .divertOpen, 12, 0⟩]) := by decide

theorem test_jam_retires_and_stops :
    seen (.jam 0) (holding 0 toStack (folder 107567))
      (fun u => (u.track.order, (u.stackers[(0 : Lane)]).phase, (u.track.counters[(0 : Lane)]).jammed))
      = some ([], .stopped, 1) := by decide

theorem test_jam_before_its_position :
    seen (.jam 0) (holding 0 toStack (folder 107566)) (fun u => u.track.order) = some [0] := by decide

theorem test_fold_fire_moves_the_head :
    seen (.foldFire 0 0) (scheduled [⟨103515, .fold 0, 0, 0⟩] (holding 0 folding (folder 103515)))
      (fun u => ((u.record 0).map (fun r => (r.headRef, r.curLen, r.state)), (u.outs[(0 : OutId)]).timer, u.sched.busy[(0 : OutId)]))
      = some (some (100915, some 915, .folding), some 60, some 103665) := by decide

theorem test_last_fold_sends_to_the_stacker :
    seen (.foldFire 0 2) (scheduled [⟨106226, .fold 2, 9, 0⟩] (holding 0 lastFold (folder 106226)))
      (fun u => (u.record 0).map (fun r => (r.headRef, r.curLen, r.state, r.expected)))
      = some (some (101526, some 304, .toStack, some 107526)) := by decide

theorem test_open_fire_counts :
    seen (.divertOpenFire 0) (scheduled [⟨500, .divertOpen, 12, 0⟩] (holding 0 rejected (folder 500)))
      (fun u => (u.outLevel 12, u.sched.entries)) = some (true, []) := by decide

theorem test_close_fire_credits_a_reject :
    seen (.divertCloseFire 0) (scheduled [⟨500, .divertClose, 12, 0⟩] (holding 0 rejected (folder 500)))
      (fun u => (u.tally.live, (u.track.counters[(0 : Lane)]).rejected, u.link.reports.map (fun t => t.kind)))
      = some ([(⟨3, 3⟩, ⟨0, 0, 1, false⟩)], 1, [0x82]) := by decide

theorem test_busy_until_is_reached :
    seen (.busyUntilReached 8) { folder 700 with sched := ⟨[], upd (Vector.replicate 16 none) 8 (some 700)⟩ }
      (fun u => u.sched.busy[(8 : OutId)]) = some none := by decide

/-- R97: the output is released as the count of R7 ends, and not before. -/
theorem test_shot_ends :
    [0, 1].map (fun n => seen (.shotTimerExpiry 0) { folder 700 with outs := upd (folder 700).outs 0 ⟨.station, 60, some n, 0, false⟩ }
      (fun u => u.outLevel 0)) = [some false, some true] := by decide

/-- R98, R105: a shot started as the expiry of the one before is due keeps the output asserted. -/
theorem test_restarted_shot_does_not_end :
    (after (.forceOutputShot 1 8) { folder 0 with
        line := .service, outs := upd (folder 0).outs 8 ⟨.station, 60, some 0, 0, true⟩ }).bind
      (fun s => seen (.shotTimerExpiry 8) s (fun u => (u.outLevel 8, (u.outs[(8 : OutId)]).timer)))
      = some (true, some 60) := by decide

/-! ## The handshake (Sections 7.10 and 7.11) -/

/-- R7: 20 units are 1,280 ticks. -/
theorem test_sack_starts_the_timer :
    seen (.sackRise 1) (stacking 1 ⟨.offered, none, [], false, 0, none, 212, 0⟩ (folder 0))
      (fun u => ((u.stackers[(1 : Lane)]).phase, (u.stackers[(1 : Lane)]).timer)) = some (.lowering, some 1280) := by decide

theorem test_sclr_releases_the_shelf :
    seen (.sclrRise 1) (stacking 1 ⟨.lowering, none, [⟨⟨9, 12⟩, true, 50, false⟩, ⟨⟨9, 12⟩, false, 50, false⟩,
        ⟨⟨9, 12⟩, false, 50, false⟩], false, 0, some 900, 212, 0⟩ (folder 0))
      (fun u => u.stackers[(1 : Lane)]) = some ⟨.collecting, some ⟨⟨9, 12⟩, 3, 0, 50, true⟩, [], false, 0, none, 212, 0⟩ := by decide

/-- Section 7.10: p2 closes the stack of 49 and goes to the shelf. -/
theorem test_arrival_with_a_separator_closes :
    seen (.cover (.es 1)) (holding 0 { toStack with lane := 1, group := 9, article := 12, startsBatch := true, target := 50 }
        (stacking 1 ⟨.collecting, some ⟨⟨3, 12⟩, 49, 0, 50, false⟩, [], false, 0, none, 211, 0⟩ (folder 107530)))
      (fun u => (u.stackers[(1 : Lane)], u.tally.live))
      = some (⟨.offered, none, [⟨⟨9, 12⟩, true, 50, false⟩], false, 0, none, 212, 0⟩, [(⟨3, 12⟩, ⟨49, 1, 0, false⟩)]) := by decide

/-- R128: the last piece joins its stack, which then closes. -/
theorem test_last_arrival_in_drain_closes :
    seen (.cover (.es 1)) { holding 0 { toStack with lane := 1, group := 9, article := 12, target := 50 }
        (stacking 1 ⟨.collecting, some ⟨⟨9, 12⟩, 7, 0, 50, false⟩, [], false, 0, none, 211, 0⟩ (folder 107530)) with line := .drain }
      (fun u => ((u.stackers[(1 : Lane)]).phase, u.tally.live)) = some (.offered, [(⟨9, 12⟩, ⟨8, 1, 0, false⟩)]) := by decide

theorem test_discharge_timeout_stops :
    [0, 1].map (fun n => seen (.dischargeTimeout 1) (stacking 1 ⟨.lowering, none, [], true, 0, some n, 0, 0⟩ (folder 0))
      (fun u => (u.stackers[(1 : Lane)]).phase)) = [some .stopped, some .lowering] := by decide

/-! ## The line -/

theorem test_drain_completes :
    seen .drainCompletion { queued 2 [.separator 90] (folder 100) with line := .drain }
      (fun u => (u.line, u.queues[(2 : Lane)], u.link.reports.map (fun t => t.kind))) = some (.ready, [], [0x84, 0x85]) := by decide

theorem test_cold_reset_samples_the_inputs :
    seen (.coldReset 4) { folder 100 with pins := ⟨#v[true, false, false, false], Vector.replicate 4 false, false⟩ }
      (fun u => (u.unit.lsQual[(0 : Lane)], u.node, u.line, u.pins.rst)) = some (.covered, 4, .init, true) := by decide

theorem test_rst_falls_cuts_the_telegram :
    seen .rstFalls { folder 100 with link := ⟨.body [0xD3], [], [⟨1, 4, 0x80, []⟩, ⟨1, 4, 0x81, []⟩], .reporting, 3⟩ }
      (fun u => (u.pins.rst, u.link.reports.length, u.link.errors)) = some (false, 1, 3) := by decide

theorem test_line_mode_run :
    seen (.lineModeRun 1 false) { folder 100 with line := .ready } (fun u => (u.line, u.link.reports.map (fun t => t.kind)))
      = some (.run, [0x80, 0x85]) := by decide

theorem test_line_mode_ready_from_service :
    seen (.lineModeReady 1 false) { folder 100 with line := .service, outs := upd (folder 0).outs 12 ⟨.diverter, 0, none, 0, true⟩ }
      (fun u => (u.line, u.outLevel 12)) = some (.ready, false) := by decide

theorem test_line_mode_drain_on_an_empty_line :
    seen (.lineModeDrain 1 false) (folder 100) (fun u => (u.line, u.link.reports.map (fun t => t.kind)))
      = some (.ready, [0x80, 0x85, 0x85]) := by decide

theorem test_line_mode_service_from_run_is_refused :
    seen (.lineModeService 1 false) (folder 100) (fun u => (u.line, u.link.reports.map (fun t => t.payload)))
      = some (.run, [[0x40, 2, 0]]) := by decide

/-- Section 2.9, last row. -/
theorem test_line_reset_empties_the_queue :
    seen (.lineReset 1 false []) (queued 3 [.announce 20 300 8250] (folder 10120))
      (fun u => (u.line, u.queues[(3 : Lane)], u.link.reports.map (fun t => t.kind))) = some (.ready, [], [0x80, 0x85]) := by decide

/-! ## Telegrams -/

/-- Section 2.9: the ninth entry is refused. -/
theorem test_announce_to_a_full_queue :
    seen (.announce 1 [3, 20, 1, 44]) (queued 3 (List.replicate 8 (.announce 20 300 8100)) (folder 8150))
      (fun u => ((u.queues[(3 : Lane)]).length, u.link.reports.map (fun t => t.payload)))
      = some (8, [[3, 3, 0, 1, 20, 1, 44, 0, 0x1F, 0xD6, 0, 0x1F, 0xD6]]) := by decide

theorem test_announce_joins_the_tail :
    seen (.announce 1 [1, 12, 18, 42]) (folder 50000) (fun u => u.queues[(1 : Lane)]) = some [.announce 12 4650 50000] := by decide

theorem test_separator_joins_the_tail :
    seen (.separator 1 [1]) (queued 1 [.announce 12 4650 50400] (folder 50900)) (fun u => u.queues[(1 : Lane)])
      = some [.announce 12 4650 50400, .separator 50900] := by decide

theorem test_unknown_kind_is_invalid :
    seen (.unknownKind 1 0x99) (folder 0) (fun u => u.link.reports) = some [⟨1, 4, 0x80, [0x99, 4, 0]⟩] := by decide

theorem test_receiver_finds_the_start_mark :
    seen (.rxdByte 0x2C true) { folder 0 with link := { Link.cold with receiver := .hunt true } } (fun u => u.link.receiver)
      = some (.body [0xD3, 0x2C]) := by decide

theorem test_receiver_abandons_a_long_telegram :
    seen (.rxdByte 41 true) { folder 0 with link := { Link.cold with receiver := .body [0xD3, 0x2C, 4, 1, 0x10] } }
      (fun u => (u.link.receiver, u.link.errors)) = some (.hunt false, 1) := by decide

/-- A SEPARATOR to node 4, by its bytes (R170): 04 + 01 + 11 + 01 + 00 is 17 in hexadecimal. -/
theorem test_telegram_is_taken :
    seen .telegramReceived { folder 60 with link := { Link.cold with receiver := .body [0xD3, 0x2C, 4, 1, 0x11, 1, 0, 0, 0x17] } }
      (fun u => (u.queues[(0 : Lane)], u.link.receiver)) = some ([.separator 60], .hunt false) := by decide

theorem test_telegram_for_another_node_is_forwarded :
    seen .telegramReceived { folder 60 with link := { Link.cold with receiver := .body [0xD3, 0x2C, 5, 1, 0x11, 1, 0, 0, 0x18] } }
      (fun u => (u.link.forward, u.link.transmitter)) = some ([⟨5, 1, 0x11, [0]⟩], .forwarding) := by decide

theorem test_sent_starts_the_forwarded_first :
    seen .telegramSent { folder 0 with link := ⟨.hunt false, [⟨5, 1, 0x11, [0]⟩], [⟨1, 4, 0x80, []⟩, ⟨1, 4, 0x81, []⟩], .reporting, 0⟩ }
      (fun u => (u.link.transmitter, u.link.reports.length)) = some (.forwarding, 1) := by decide

/-! ## The Setup Store (Section 9.6) -/

/-- The part in INIT with the folder's map staged. -/
def staged : State := { State.reset with setup := { Setup.cold with staging := folderMap } }

theorem test_setup_globals :
    seen (.setupGlobals 1 [1, 12, 20, 0, 64, 11, 184, 23, 112, 40, 1, 20]) State.reset (fun u => u.setup.staging.globals)
      = some folderMap.globals := by decide

theorem test_setup_station :
    seen (.setupStation 1 [3, 2, 15, 60, 0, 250, 8, 255, 255, 255]) State.reset (fun u => u.setup.staging.stations[(3 : StationId)])
      = some (.shared 3900 250 8) := by decide

theorem test_setup_output_clamps :
    seen (.setupOutput 1 [8, 0, 0, 0]) State.reset (fun u => (u.setup.staging.outputs[(8 : OutId)], u.link.reports.map (fun t => t.payload)))
      = some (some ⟨.pulse, 1⟩, [[0x22, 1, 0]]) := by decide

theorem test_setup_diverter :
    seen (.setupDiverter 1 [2, 14, 19, 136, 40, 60, 3, 0]) State.reset (fun u => u.setup.staging.diverters[(2 : Lane)])
      = some ⟨some 14, 5000, 40, 60, 3, 0⟩ := by decide

theorem test_commit_map :
    seen (.commitMap 1 []) staged (fun u => (u.line, u.unit.confirmSpan, (u.outs[(8 : OutId)]).role, (u.outs[(12 : OutId)]).role))
      = some (.ready, 12, .station, .diverter) := by decide

theorem test_commit_names_a_missing_diverter :
    seen (.commitMap 1 []) { staged with setup := { staged.setup with staging := { folderMap with
        diverters := upd folderMap.diverters 0 ⟨none, 5000, 40, 60, 3, 0⟩ } } }
      (fun u => (u.line, u.link.reports.map (fun t => t.payload))) = some (.init, [[0x24, 4, 4, 0]]) := by decide

/-- R148: with checks 2 and 3 failing too, on outputs 9 and 8, check 2 is named. -/
theorem test_commit_names_the_first_check :
    seen (.commitMap 1 []) { staged with setup := { staged.setup with staging := { folderMap with
        stations := upd folderMap.stations 0 (.shared 5 5 9), outputs := upd folderMap.outputs 8 none } } }
      (fun u => u.link.reports.map (fun t => t.payload)) = some [[0x24, 4, 2, 9]] := by decide

theorem test_load_article :
    seen (.loadArticle 1 [12, 1, 0, 5, 1, 124, 2, 48, 50]) (folder 0) (fun u => u.setup.articles[(12 : Article)])
      = some (some ⟨.stack, 5, 380, 560, 50⟩) := by decide

theorem test_load_plan_with_a_signed_trim :
    seen (.loadPlan 1 [6, 3, 1, 1, 2, 0, 3, 1, 3, 6, 4, 1, 2, 254]) (folder 0) (fun u => u.setup.plans[(6 : PlanNo)])
      = some (some sheetPlan) := by decide

theorem test_load_customer :
    seen (.loadCustomer 1 [1, 1, 18, 0, 255, 0, 3]) (folder 0) (fun u => u.setup.customers[(1 : CustomerIndex)])
      = some (some ⟨4608, 0xFF00, 3⟩) := by decide

theorem test_load_lanes :
    seen (.loadLanes 1 [1, 5, 0, 7]) { folder 0 with line := .ready } (fun u => u.setup.lanes)
      = some (some ⟨.dual, 5, .reject, 7⟩) := by decide

theorem test_load_lanes_outside_the_plan :
    seen (.loadLanes 1 [1, 2, 0, 7]) { folder 0 with line := .ready } (fun u => u.link.reports.map (fun t => t.payload))
      = some [[0x33, 4, 0]] := by decide

theorem test_lock_entry :
    seen (.lockEntry 1 [0, 3]) (folder 0) (fun u => u.setup.articleLocks[(3 : Article)]) = some true := by decide

/-! ## Stacker commands (Sections 7.10 and 7.11) -/

theorem test_close_command :
    seen (.stackCmdClose 1 2 0) (stacking 2 ⟨.collecting, some ⟨⟨5, 20⟩, 13, 1, 40, false⟩, [], false, 0, none, 87, 0⟩ (folder 0))
      (fun u => (u.stackers[(2 : Lane)], u.link.reports.map (fun t => t.payload)))
      = some (⟨.offered, none, [], false, 0, none, 88, 0⟩, [[2, 0, 87, 5, 20, 0, 13, 0, 1, 40, 0, 3, 0, 0], [0x42, 0, 0]]) := by decide

theorem test_close_command_at_a_stopped_stacker :
    seen (.stackCmdClose 1 2 0) (stacking 2 ⟨.stopped, some ⟨⟨5, 20⟩, 13, 1, 40, false⟩, [], false, 0, none, 87, 0⟩ (folder 0))
      (fun u => u.link.reports.map (fun t => t.payload)) = some [[0x42, 2, 0]] := by decide

theorem test_stop_in_lowering :
    seen (.stackCmdStop 1 1 0) (stacking 1 ⟨.lowering, none, [], false, 0, some 900, 212, 0⟩ (folder 0))
      (fun u => (u.stackers[(1 : Lane)]).pausePending) = some true := by decide

theorem test_stop_after_on_an_empty_stack :
    seen (.stackCmdStopAfter 1 1 0) (folder 0) (fun u => (u.stackers[(1 : Lane)]).phase) = some .paused := by decide

theorem test_resume_opens_the_shelf :
    seen (.stackCmdResume 1 1 0) (stacking 1 ⟨.paused, none, [⟨⟨9, 12⟩, true, 50, false⟩], false, 0, none, 212, 0⟩ (folder 0))
      (fun u => (u.stackers[(1 : Lane)]).stack) = some (some ⟨⟨9, 12⟩, 1, 0, 50, true⟩) := by decide

theorem test_target_at_a_stopped_stacker :
    seen (.stackCmdTarget 1 2 30) (stacking 2 ⟨.stopped, none, [], false, 0, none, 87, 0⟩ (folder 0))
      (fun u => ((u.stackers[(2 : Lane)]).override, u.link.reports.map (fun t => t.payload))) = some (30, [[0x42, 0, 0]]) := by decide

/-- Section 7.10, too many pieces in flight: three shelf pieces on top of one unplaced. -/
theorem test_clear_lane :
    seen (.clearLane 1 [1]) (stacking 1 ⟨.stopped, none, List.replicate 3 ⟨⟨9, 12⟩, false, 50, false⟩, false, 0, none, 212, 1⟩ (folder 0))
      (fun u => u.stackers[(1 : Lane)]) = some ⟨.collecting, none, [], false, 0, none, 212, 4⟩ := by decide

/-! ## Forced outputs, reads and the tally -/

theorem test_force_set :
    seen (.forceOutputSet 1 12) { folder 0 with line := .service } (fun u => u.outLevel 12) = some true := by decide

theorem test_force_clear :
    seen (.forceOutputClear 1 12) { folder 0 with line := .service, outs := upd (folder 0).outs 12 ⟨.diverter, 0, none, 0, true⟩ }
      (fun u => u.outLevel 12) = some false := by decide

theorem test_force_shot :
    seen (.forceOutputShot 1 8) { folder 0 with line := .service } (fun u => (u.outs[(8 : OutId)]).timer) = some (some 60) := by decide

/-- Section 8.7: the four rows of the billing period. -/
def period : Tally :=
  { Tally.cold with
    live := [(⟨0, 7⟩, ⟨12, 2, 0, false⟩), (⟨3, 12⟩, ⟨1470, 30, 4, false⟩), (⟨5, 20⟩, ⟨813, 21, 2, false⟩),
      (⟨9, 12⟩, ⟨150, 3, 0, false⟩)]
    freezeSerial := 6, snapSerial := 6, snapStamp := some 0, snapCleared := true }

theorem test_freeze :
    seen (.tallyFreeze 1 [1]) { folder 5200000 with tally := period }
      (fun u => (u.tally.live, u.tally.snapRows.length, u.link.reports.map (fun t => t.payload)))
      = some ([], 4, [[0x50, 0, 0, 1, 4, 7, 0x4F, 0x58, 0x80, 1]]) := by decide

theorem test_read_of_the_last_row :
    seen (.tallyRead 1 []) { folder 0 with tally := { period with
        snapSerial := 7, snapStamp := some 5200000, snapRows := [⟨some ⟨9, 12⟩, ⟨150, 3, 0, false⟩⟩] } }
      (fun u => (u.tally.snapRows, u.link.reports.map (fun t => t.payload)))
      = some ([], [[0x51, 0, 128, 7, 0x4F, 0x58, 0x80, 9, 12, 0, 0, 150, 0, 0, 3, 0, 0, 0]]) := by decide

theorem test_status_clears_the_loss_flag :
    seen (.statusRead 1 [1]) { folder 0 with loss := true } (fun u => (u.loss, u.link.reports.map (fun t => t.payload.take 9)))
      = some (false, [[0x52, 0, 0, 2, 1, 1, 0, 1, 1]]) := by decide

theorem test_item_read_of_a_free_slot :
    seen (.itemRead 1 [5]) (folder 0) (fun u => u.link.reports.map (fun t => t.payload)) = some [[0x53, 0, 0, 5]] := by decide

theorem test_item_read_of_the_sheet :
    seen (.itemRead 1 [0]) (holding 0 folding (folder 102000)) (fun u => u.link.reports.map (fun t => t.payload.take 7))
      = some [[0x53, 0, 1, 0, 0, 1, 0], [0x53, 0, 2, 0, 1, 18, 0]] := by decide

/-! ## Witnesses: states and operands that meet the hypotheses of the statements -/

theorem witness_StepTakesTheFrontCommand :
    ({ folder 0 with pending := [.encoderPulse, .rstFalls] } : State).pending = .encoderPulse :: [.rstFalls] := rfl

theorem forall_mem_of_all {α : Type} {o : Option α} {P : α → Bool} (h : o.all P = true) : ∀ x ∈ o, P x = true := by
  intro x hx
  rw [Option.mem_def.mp hx] at h
  exact h

/-- The check of every slot, for a lane and its TO_STACK records. -/
def slotsPass (s : State) (k : Lane) (P : Tag → ItemRecord → Bool) : Bool :=
  allTags.all fun t => (s.record t).all fun r => !(decide (r.lane = k) && decide (r.state = .toStack)) || P t r

theorem slots_pass {s : State} {k : Lane} {P : Tag → ItemRecord → Bool} (h : slotsPass s k P = true) :
    ∀ t : Tag, ∀ r ∈ s.record t, r.lane = k → r.state = .toStack → P t r = true := by
  intro t r hr hl hs
  have h1 := List.all_eq_true.mp h t (List.mem_finRange t)
  have h2 := forall_mem_of_all h1 r hr
  simpa [hl, hs] using h2

theorem none_overdue {s : State} {k : Lane}
    (h : slotsPass s k (fun _ r => (s.jamPosition r).all (ahead s.position)) = true) : NoneOverdue s k :=
  fun t r hr hl hs => forall_mem_of_all (slots_pass h t r hr hl hs)

/-- A running timer at its last tick, and stopped ones. -/
theorem witness_EmptyQueueStepTicksTheTimers :
    let s := stacking 1 ⟨.lowering, none, [], false, 0, some 1, 0, 0⟩ (folder 0)
    s.pins.rst = true ∧ s.pending = [] ∧ Quiet s := by
  and_intros <;> decide +kernel

/-- A line at work: two pieces on lane 0, a stack, a row billed, a telegram half received, a command waiting. -/
def busyLine : State :=
  let s := holding 1 rejected (holding 0 folding (stacking 0 ⟨.collecting, some ⟨⟨3, 3⟩, 9, 0, 10, false⟩, [], false, 0, none, 5, 0⟩
    (scheduled [⟨103515, .fold 0, 0, 0⟩, ⟨106890, .divertClose, 12, 1⟩] (folder 102000))))
  { s with
    pending := [.announce 1 [1, 12, 18, 42], .foldFire 0 0]
    track := { s.track with counters := upd s.track.counters 0 ⟨3, 1, 0, 0, 0⟩ }
    tally := period
    link := ⟨.body [0xD3, 0x2C, 4], [⟨5, 1, 0x11, [0]⟩], [⟨1, 4, 0x80, []⟩], .forwarding, 0⟩ }

theorem witness_StepKeepsTheInvariants :
    BoundsInv busyLine ∧ TallyInv busyLine ∧ CounterInv busyLine ∧ StackerInv busyLine ∧ IdleInv busyLine
      ∧ SensorInv busyLine := by
  and_intros <;> decide +kernel

theorem witness_StepKeepsTelegramsWithinTheFrame : FrameInv busyLine := by
  refine ⟨?_, ?_, fun bytes h => ?_, ?_, ?_, ?_⟩
  · decide
  · decide
  · injection h with h
    subst h
    decide
  all_goals decide +kernel

theorem witness_TheInvariantsMeetAStep : ∃ u, step busyLine = .next u := ⟨_, rfl⟩

theorem witness_CommittedMapAndLockedEntriesStay :
    let s := { folder 0 with setup := { (folder 0).setup with
      articleLocks := upd (folder 0).setup.articleLocks 3 true, planLocks := upd (folder 0).setup.planLocks 5 true } }
    (∀ na, Instr.lineReset 1 false [] ≠ .coldReset na) ∧ s.line ≠ .init ∧ (∃ u, exec (.lineReset 1 false []) s = .next u)
      ∧ s.setup.committed ≠ none ∧ s.setup.articleLocks[(3 : Article)] = true ∧ s.setup.planLocks[(5 : PlanNo)] = true :=
  by
  intro s
  exact ⟨fun _ h => (by cases h), by decide, ⟨_, rfl⟩, by decide, by decide, by decide⟩

def rstLow : State := { folder 0 with pins := { (folder 0).pins with rst := false } }

theorem witness_EncoderPulseCountsTheBelt :
    (folder 16777215).pins.rst = true ∧ Quiet (folder 16777215) ∧ rstLow.pins.rst = false := by
  and_intros <;> decide +kernel

/-- The highest slot free; then the lowest. -/
theorem witness_LeadingEdgeMakesARecord :
    let s := { folder 102000 with track := ⟨upd (Vector.replicate 24 (some rejected)) 23 none, [], Tracking.cold.counters⟩ }
    (s.pins.rst = true ∧ s.pins.ls[(3 : Lane)] = false ∧ s.unit.lsQual[(3 : Lane)] = .clear ∧ s.line.runs = true
      ∧ s.enabled 3 = true ∧ s.record 23 = none ∧ (∀ t' : Tag, t' < 23 → s.record t' ≠ none))
    ∧ (folder 0).record 0 = none ∧ (folder 0).enabled 0 = true ∧ ((folder 0).map.diverters[(0 : Lane)]).output = some 12 := by
  and_intros <;> decide +kernel

/-- The group by the last entry of the map, by none, and without an announcement. -/
theorem witness_LeadingEdgeBindsTheQueue :
    let map := upd (upd (Vector.replicate 16 none) 2 (some ⟨5000, 0xFFFF, 1⟩)) 15 (some (⟨7000, 0xFFFF, 9⟩ : CustomerEntry))
    let s := queued 1 ([QueueEntry.separator 50900] ++ [.announce 12 7000 51000, .announce 12 7000 51100]) (folder 52900)
    (s.pins.rst = true ∧ s.pins.ls[(1 : Lane)] = false ∧ s.unit.lsQual[(1 : Lane)] = .clear ∧ s.line.runs = true
      ∧ s.enabled 1 = true ∧ s.record 0 = none ∧ (∀ t' : Tag, t' < 0 → s.record t' ≠ none)
      ∧ (∀ e ∈ [QueueEntry.separator 50900], e.isSeparator = true)
      ∧ (∀ e ∈ [QueueEntry.announce 12 7000 51100].head?, s.expiryOf e ≠ s.position))
    ∧ map[(15 : CustomerIndex)] = some ⟨7000, 0xFFFF, 9⟩ ∧ (7000 : CustomerId) &&& 0xFFFF = 7000 &&& 0xFFFF
    ∧ (∀ i : CustomerIndex, i < 15 → ∀ e ∈ map[i], ¬((7000 : CustomerId) &&& e.mask = e.base &&& e.mask))
    ∧ (∀ i : CustomerIndex, ∀ e ∈ s.setup.customers[i], ¬((7000 : CustomerId) &&& e.mask = e.base &&& e.mask))
    ∧ (queued 1 ([.separator 50900] ++ []) (folder 52900)).queues[(1 : Lane)] = [.separator 50900] := by
  and_intros <;> decide +kernel

theorem witness_SensorEdgesWithoutARecord :
    (let s := sensing (.clearing 100640 100652) .clear false false (folder 100646);
      s.pins.rst = true ∧ s.pinLevel (.ls 0) = false ∧ s.qual (.ls 0) = .clearing 100640 100652
        ∧ (100652 : Pos) ≠ s.position)
    ∧ (let s := { folder 0 with line := .ready };
      s.pins.ls[(0 : Lane)] = false ∧ s.unit.lsQual[(0 : Lane)] = .clear ∧ s.inPlan 0 = true ∧ s.line.runs = false
        ∧ s.pins.es[(0 : Lane)] = false ∧ s.unit.esQual[(0 : Lane)] = .clear)
    ∧ (State.reset.pins.ls[(1 : Lane)] = false ∧ State.reset.unit.lsQual[(1 : Lane)] = .clear ∧ State.reset.inPlan 1 = false)
    ∧ (let s := sensing .covered .clear true false (holding 0 entering (folder 104095));
      s.pinLevel (.ls 0) = true ∧ s.qual (.ls 0) = .covered ∧ ∀ t : Tag, ∀ r ∈ s.record t, r.overWait ≠ some s.position)
    ∧ (let s := sensing (.clearing 100640 100652) .clear false false (folder 100652);
      s.qual (.ls 0) = .clearing 100640 s.position ∧ ∀ t : Tag, ∀ r ∈ s.record t, ¬(r.lane = 0 ∧ r.state = .entering)) := by
  and_intros <;> decide +kernel

theorem witness_OverrunStopsTheLane :
    let s := queued 2 [.separator 1, .announce 12 7000 2, .announce 12 7000 3] (fullTable rejected (folder 100))
    s.pins.rst = true ∧ s.pins.ls[(2 : Lane)] = false ∧ s.unit.lsQual[(2 : Lane)] = .clear ∧ s.line.runs = true
      ∧ s.enabled 2 = true ∧ (∀ t : Tag, s.record t ≠ none) ∧ NoneOverdue s 2
      ∧ ∀ e ∈ (bindQueue s.queues[(2 : Lane)]).rest.head?, s.expiryOf e ≠ s.position := by
  and_intros <;> first | exact none_overdue (by decide) | decide

/-- A piece of length `n` of lane 0 at its confirmation. -/
def confirming (n : Nat) (r : ItemRecord) : State :=
  holding 0 r (sensing (.clearing (BitVec.ofNat 24 (100000 + n)) (BitVec.ofNat 24 (100012 + n))) .clear false false
    (folder (100012 + n)))

/-- What every confirmation of the next statements has. -/
abbrev Confirms (n : Nat) (r : ItemRecord) : Prop :=
  let s := confirming n r
  let m : Pos := BitVec.ofNat 24 (100000 + n)
  s.pins.rst = true ∧ s.unit.lsQual[(0 : Lane)] = .clearing m s.position ∧ s.line.runs = true ∧ s.enabled 0 = true
    ∧ s.oldest 0 .entering = some 0 ∧ s.record 0 = some r ∧ wrapDist r.lead m = n
    ∧ (s.map.diverters[(0 : Lane)]).output = some 12

/-- With a reason; one pulse too long to measure; one below min; one above max. -/
theorem witness_ConfirmationDivertsThePiece :
    Confirms 1830 { entering with reason := some .anonymous } ∧ Confirms 4096 entering ∧ Confirms 1699 entering
      ∧ Confirms 2401 entering ∧ entering.reason = none ∧ 1699 < entering.min ∧ entering.max < 2401 := by
  and_intros <;> decide +kernel

/-- At min and at max, by route and by an empty plan. -/
theorem witness_ConfirmationSendsAnUnfoldedPieceToStack :
    let flat := { entering with route := .flat }
    let bare := { entering with steps := [] }
    Confirms 1700 flat ∧ Confirms 2400 bare
      ∧ ahead (confirming 2400 bare).position (plus (plus 100000 6000) 41) = true ∧ flat.min = 1700 ∧ bare.max = 2400
      ∧ (confirming 2400 bare).map.params.stackDist = 6000 ∧ (confirming 2400 bare).map.params.tol = 40 := by
  and_intros <;> decide

/-- The entry of each of the sheet's three steps, on a lane. -/
def sheetBooked (m : StationMap) (k : Lane) : List (Option FireEntry) :=
  (folding.steps.zip allSteps).map (fun y => match y.1.fire, (match m.stations[y.1.station] with
      | .absent => none
      | .lane _ _ outs => outs[k]
      | .shared _ _ a => some a) with
    | some p, some a => some (⟨p, .fold y.2, a, 0⟩ : FireEntry)
    | _, _ => none)

/-- Too short to fold by one pulse; late by one pulse; booked with every output free; in conflict with an entry one pulse
inside the busy span of 150, and with a busy-until one pulse beyond; without an output for lane 3 at station 1. -/
theorem witness_ConfirmationBooksEveryFoldOrNone :
    let short := { entering with min := 1 }
    let early := { entering with max := 4095, steps := [⟨1, 1, 8, 0, none, none, .pending⟩] }
    let es : List FireEntry := [⟨103515, .fold 0, 0, 0⟩, ⟨105126, .fold 1, 8, 0⟩, ⟨106226, .fold 2, 9, 0⟩]
    let s := confirming 1830 entering
    let unfitted := { folderMap with stations := upd folderMap.stations 1 (.lane 2600 150 #v[some 0, some 1, some 2, none]) }
    Confirms 40 short ∧ (computeSteps folderMap 100000 40 none short.steps).2 = false
      ∧ Confirms 4095 early ∧ computeSteps folderMap 100000 4095 none early.steps
        = ([⟨1, 1, 8, 0, some 512, some 103112, .pending⟩], true)
      ∧ 8388607 < wrapDist (confirming 4095 early).position 103112
      ∧ wrapDist 103452 103515 < 64 ∧ ¬(8388607 < wrapDist 103451 103515 ∨ wrapDist 103451 103515 < 64)
      ∧ Confirms 1830 entering ∧ computeSteps folderMap 100000 1830 none entering.steps = (folding.steps, true)
      ∧ 64 ≤ wrapDist s.position 103515 ∧ wrapDist s.position 103515 ≤ 8388607 ∧ s.map = folderMap
      ∧ sheetBooked folderMap 0 = es.map some ∧ s.sched.entries = []
      ∧ s.sched.busy = Vector.replicate 16 none ∧ (∀ e ∈ es, wrapDist s.position e.pos ≤ 8388607)
      ∧ wrapDist 103515 103664 < 150 ∧ wrapDist 103516 103515 = 16777215
      ∧ folderMap.stations[(1 : StationId)] = .lane 2600 150 #v[some 0, some 1, some 2, some 3]
      ∧ none ∈ sheetBooked unfitted 3 := by
  and_intros <;> decide

/-- A packet of 2M + 1 pulses halved: within the bounds, one below and one above; and a packet of 2M. -/
theorem witness_FoldOffsetIsRoundedTrimmedAndClamped :
    2 * 20 + 1 ≤ 41 ∧ rawOffset 41 1 2 = 21 ∧ (20 : Int) ≤ 21 + 0 ∧ (21 : Int) + 0 ≤ 41 - 20 ∧ (21 : Int) + -2 < 20
      ∧ (41 : Int) - 20 < 21 + 1 ∧ 40 < 2 * 20 + 1 ∧ folderMap.params.margin = 20 := by
  and_intros <;> decide +kernel

theorem witness_FireChainUnrolls :
    computeSteps folderMap 100000 1830 none entering.steps = (folding.steps, true)
      ∧ (folding.steps[0]?.bind (fun y => y.fire)).isSome ∧ (folding.steps[1]?.bind (fun y => y.fire)).isSome
      ∧ 1 ≤ folderMap.params.margin ∧ (folderMap.stations[(1 : StationId)]).distance < (folderMap.stations[(3 : StationId)]).distance
      ∧ folding.steps.map (fun y => y.station) = [1, 3, 4] := by
  and_intros <;> decide +kernel

theorem witness_FoldFireMovesTheRecordOn :
    (let s := scheduled [⟨103515, .fold 0, 0, 0⟩] (holding 0 folding (folder 103515));
      s.pins.rst = true ∧ s.dueEntry 0 (.fold 0) = some ⟨103515, .fold 0, 0, 0⟩ ∧ s.record 0 = some folding
        ∧ folding.steps[0]? = some ⟨1, 1, 2, 0, some 915, some 103515, .pending⟩ ∧ folding.curLen = some 1830
        ∧ ∃ y ∈ folding.steps.set 0 ⟨1, 1, 2, 0, some 915, some 103515, .fired⟩, y.status = .pending)
    ∧ (let s := scheduled [⟨106226, .fold 2, 9, 0⟩] (holding 0 lastFold (folder 106226));
      s.dueEntry 0 (.fold 2) = some ⟨106226, .fold 2, 9, 0⟩ ∧ s.record 0 = some lastFold ∧ lastFold.state = .folding
        ∧ (∀ y ∈ lastFold.steps.set 2 ⟨4, 1, 2, -2, some 300, some 106226, .fired⟩, y.status ≠ .pending)
        ∧ ahead s.position (plus (plus 101526 6000) 41) = true) := by
  and_intros <;> decide

theorem witness_ExpiryRemovesTheDueHeads :
    let s := queued 3 ([.announce 20 300 8100, .separator 8100] ++ [.announce 20 300 8101]) (folder 11100)
    s.pins.rst = true ∧ s.queues[(3 : Lane)] = [.announce 20 300 8100, .separator 8100] ++ [.announce 20 300 8101]
      ∧ (∀ e ∈ [QueueEntry.announce 20 300 8100, .separator 8100], s.expiryOf e = s.position)
      ∧ ∀ e ∈ [QueueEntry.announce 20 300 8101].head?, s.expiryOf e ≠ s.position := by
  and_intros <;> decide +kernel

theorem witness_OverlengthWaitDecides :
    let s := holding 0 entering (sensing .covered .clear true false (folder 104096))
    let u := holding 0 entering (sensing (.clearing 104090 104102) .clear false false (folder 104096))
    s.pins.rst = true ∧ s.record 0 = some entering ∧ entering.overWait = some s.position
      ∧ (s.map.diverters[(0 : Lane)]).output = some 12 ∧ s.unit.lsQual[(0 : Lane)] = .covered ∧ entering.reason = none
      ∧ u.unit.lsQual[(0 : Lane)] ≠ .covered := by
  and_intros <;> decide +kernel

/-- On a line that drains, another piece behind; and the last piece. -/
theorem witness_JamRetiresAndStops :
    let s := { holding 1 { toStack with headRef := 101527, expected := some 107527 } (holding 0 toStack (folder 107567)) with
      line := .drain }
    let last := { holding 0 toStack (folder 107567) with line := .drain }
    (s.pins.rst = true ∧ s.oldest 0 .toStack = some 0 ∧ s.record 0 = some toStack ∧ s.jamPosition toStack = some s.position
      ∧ (∀ t' : Tag, t' ≠ 0 → ∀ x ∈ s.record t', x.lane = 0 → x.state = .toStack →
        ∀ p ∈ s.jamPosition x, ahead s.position p = true)
      ∧ ∃ t' : Tag, t' ≠ 0 ∧ s.record t' ≠ none)
    ∧ last.pins.rst = true ∧ last.oldest 0 .toStack = some 0 ∧ last.jamPosition toStack = some last.position
      ∧ last.record 0 = some toStack ∧ ∀ t' : Tag, t' ≠ 0 → last.record t' = none := by
  intro s last
  refine ⟨⟨by decide, by decide, by decide, by decide, ?_, by decide⟩, by decide, by decide, by decide, by decide, by decide⟩
  have h : slotsPass s 0 (fun t r => decide (t = 0) || (s.jamPosition r).all (ahead s.position)) = true := by decide
  intro t' ht x hx hl hs
  have h2 := slots_pass h t' x hx hl hs
  simp only [ht, decide_false, Bool.false_or] at h2
  exact forall_mem_of_all h2

/-- A record that is converted, at the last pulse before its open position, and one too close; with the FOLD entry of the
one. -/
theorem witness_LaneStopConversion :
    let s := scheduled [⟨105126, .fold 1, 8, 0⟩] (holding 1 toStack (holding 0 folding (folder 104959)))
    OrderInv s ∧ folding.curLen = some 1830 ∧ (s.map.diverters[(0 : Lane)]).output = some 12 ∧ ahead s.position (minus (plus folding.headRef 5000) 40) = true
      ∧ ahead (104960 : Pos) (minus (plus folding.headRef 5000) 40) = false := by
  and_intros <;> decide +kernel

theorem witness_OpenFireBusyEndAndShotEnd :
    (scheduled [⟨500, .divertOpen, 12, 0⟩] (folder 500)).dueEntry 0 .divertOpen = some ⟨500, .divertOpen, 12, 0⟩
      ∧ (let s := { folder 700 with sched := ⟨[], upd (Vector.replicate 16 none) 15 (some 700)⟩ };
        s.sched.busy[(15 : OutId)] = some s.position)
      ∧ (let s := { folder 700 with outs := upd (upd (folder 700).outs 0 ⟨.station, 60, some 0, 0, false⟩) 1 ⟨.station, 60, some 1, 0, false⟩ };
        (s.outs[(0 : OutId)]).timer = some 0 ∧ (s.outs[(1 : OutId)]).timer ≠ some 0) := by
  and_intros <;> decide +kernel

/-- On a line that drains, another piece behind; and the last piece. -/
theorem witness_CloseFireRejectsItsRecord :
    let last := { scheduled [⟨500, .divertClose, 12, 0⟩] (holding 0 rejected (folder 500)) with line := .drain }
    let s := { scheduled [⟨500, .divertClose, 12, 0⟩] (holding 1 rejected (holding 0 rejected (folder 500))) with line := .drain }
    s.pins.rst = true ∧ s.dueEntry 0 .divertClose = some ⟨500, .divertClose, 12, 0⟩ ∧ s.record 0 = some rejected
      ∧ (∃ t' : Tag, t' ≠ 0 ∧ s.record t' ≠ none)
      ∧ last.dueEntry 0 .divertClose = some ⟨500, .divertClose, 12, 0⟩ ∧ last.record 0 = some rejected
      ∧ ∀ t' : Tag, t' ≠ 0 → last.record t' = none := by
  and_intros <;> decide +kernel

/-- The folder with a shelf capacity of 0 on lane 0. -/
def unshelved (s : State) : State :=
  { s with setup := { s.setup with committed := some { folderMap with
    diverters := upd folderMap.diverters 0 ⟨some 12, 5000, 40, 60, 0, 0⟩ } } }

/-- What every arrival of the next statement has: a record at a position, before a stacker `st`; the check of the slots
is `none_overdue`'s. -/
abbrev ArrivesIn (s : State) (r : ItemRecord) (st : Stacker) : Prop :=
  s.pins.rst = true ∧ s.pins.es[(0 : Lane)] = false ∧ s.unit.esQual[(0 : Lane)] = .clear ∧ s.line.runs = true
    ∧ s.enabled 0 = true ∧ s.oldest 0 .toStack = some 0 ∧ s.record 0 = some r ∧ r.expected = some 107526
    ∧ inWindow 107526 s.map.params.tol s.position = true ∧ slotsPass s 0 (fun _ r => (s.jamPosition r).all (ahead s.position)) = true
    ∧ s.stackers[(0 : Lane)] = st

abbrev Arrives (p : Nat) (r : ItemRecord) (st : Stacker) : Prop :=
  ArrivesIn (holding 0 r (stacking 0 st (folder p))) r st

/-- Both ends of the window, and every clause; without a shelf; and the last piece of a line that drains. -/
theorem witness_MatchedArrivalIsStackedOrShelved :
    let o : OpenStack := ⟨⟨3, 3⟩, 8, 0, 10, false⟩
    Arrives 107486 toStack Stacker.cold ∧ Arrives 107566 toStack { Stacker.cold with phase := .stopped }
      ∧ Arrives 107530 toStack { Stacker.cold with stack := some o } ∧ o.pieces + 1 ≠ o.target
      ∧ o.key = ⟨toStack.group, toStack.article⟩
      ∧ Arrives 107530 toStack { Stacker.cold with stack := some { o with pieces := 9 } }
      ∧ Arrives 107530 { toStack with startsBatch := true } { Stacker.cold with stack := some o }
      ∧ Arrives 107530 toStack { Stacker.cold with phase := .paused, shelf := List.replicate 2 ⟨⟨3, 3⟩, false, 10, false⟩ }
      ∧ Arrives 107530 toStack { Stacker.cold with phase := .stopped, stack := some { o with pieces := 65534 } }
      ∧ Arrives 107530 toStack { Stacker.cold with phase := .offered, shelf := List.replicate 3 ⟨⟨3, 3⟩, false, 10, false⟩ }
      ∧ Arrives 107530 toStack { Stacker.cold with phase := .lowering, shelf := [⟨⟨3, 4⟩, false, 10, false⟩] }
      ∧ Arrives 107530 toStack { Stacker.cold with phase := .stopped, stack := some { o with pieces := 65535 } }
      ∧ (folder 0).shelfCap 0 = 3 ∧ (unshelved (folder 0)).shelfCap 0 = 0
      ∧ ArrivesIn (holding 0 { toStack with startsBatch := true } (stacking 0 { Stacker.cold with stack := some o }
        (unshelved (folder 107530)))) { toStack with startsBatch := true } { Stacker.cold with stack := some o }
      ∧ ArrivesIn { holding 0 toStack (stacking 0 { Stacker.cold with stack := some o } (folder 107530)) with line := .drain }
        toStack { Stacker.cold with stack := some o } := by
  and_intros <;> decide

/-- One pulse before the window, before each stacker of the clauses; the checks of the slots as above; and in DRAIN with
no live record. -/
theorem witness_UnmatchedArrivalIsAStray :
    let o : OpenStack := ⟨⟨3, 3⟩, 8, 0, 10, false⟩
    let early (st : Stacker) := holding 0 toStack (stacking 0 st (folder 107485))
    let empty := { folder 107485 with line := .drain }
    (∀ st ∈ [Stacker.cold, { Stacker.cold with phase := .stopped }, { Stacker.cold with stack := some o },
        { Stacker.cold with phase := .stopped, stack := some { o with pieces := 65534 } },
        { Stacker.cold with phase := .stopped, stack := some { o with pieces := 65535 } },
        { Stacker.cold with stack := some { o with pieces := 9 } },
        { Stacker.cold with phase := .paused, shelf := List.replicate 2 ⟨⟨3, 3⟩, false, 10, false⟩ },
        { Stacker.cold with phase := .offered, shelf := List.replicate 3 ⟨⟨3, 3⟩, false, 10, false⟩ }],
      (early st).pins.rst = true ∧ (early st).pins.es[(0 : Lane)] = false ∧ (early st).unit.esQual[(0 : Lane)] = .clear
        ∧ (early st).line.runs = true ∧ (early st).shelfCap 0 = 3 ∧ (early st).enabled 0 = true
        ∧ slotsPass (early st) 0 (fun _ r => ((early st).jamPosition r).all (ahead (early st).position)) = true
        ∧ slotsPass (early st) 0 (fun _ r => r.expected.all (fun x =>
          !inWindow x (early st).map.params.tol (early st).position)) = true)
    ∧ o.pieces + 1 ≠ o.target ∧ empty.line.runs = true ∧ empty.enabled 0 = true ∧ empty.pins.es[(0 : Lane)] = false
    ∧ empty.unit.esQual[(0 : Lane)] = .clear ∧ ∀ t : Tag, empty.record t = none := by decide

theorem witness_CloseReportsCreditsAndAdvances :
    ((stacking 3 { Stacker.cold with stack := some ⟨⟨3, 3⟩, 65535, 0, 10, false⟩ } (folder 0)).stackers[(3 : Lane)]).stack
      = some ⟨⟨3, 3⟩, 65535, 0, 10, false⟩ := by
  decide +kernel

theorem witness_DrainClosesEveryCollectingStack :
    let s := { stacking 3 { Stacker.cold with stack := some ⟨⟨3, 3⟩, 1, 0, 10, false⟩ } (folder 0) with line := .drain }
    (s.line = .drain ∧ (∀ t : Tag, s.record t = none)) ∧ (drainNotes s).length = 1 ∧ drainTally s ≠ s.tally
      ∧ (folder 0).line ≠ .drain ∧ ∃ t : Tag, ({ holding 0 toStack (folder 0) with line := .drain } : State).record t ≠ none := by
  and_intros <;> decide +kernel

/-- A live table with 128 rows (Section 8.7, a full table). -/
def fullTally : List (Key × TallyRow) :=
  (List.finRange 64).map (fun a => (⟨0, a⟩, .zero)) ++ (List.finRange 64).map (fun a => (⟨1, a⟩, .zero))

theorem witness_CreditGoesToOneRow :
    period.live.Pairwise (fun x y => x.1.rank < y.1.rank) ∧ ((⟨3, 12⟩, ⟨1470, 30, 4, false⟩) : Key × TallyRow) ∈ period.live
      ∧ (∀ x ∈ period.live, x.1 ≠ ⟨7, 40⟩) ∧ period.live.length < 128 ∧ 128 ≤ fullTally.length := by
  and_intros <;> decide +kernel

theorem witness_CreditToAFullTable : fullTally.Pairwise (fun x y => x.1.rank < y.1.rank) := by
  simp only [fullTally, List.pairwise_append, List.pairwise_map, Key.rank, List.mem_map]
  refine ⟨?_, ?_, ?_⟩
  · exact (List.pairwise_lt_finRange 64).imp (fun h => by simpa using h)
  · exact (List.pairwise_lt_finRange 64).imp (fun h => by simpa using h)
  · rintro _ ⟨a, -, rfl⟩ _ ⟨b, -, rfl⟩
    simp only [Fin.isValue, Fin.val_zero, Fin.val_one]
    omega

theorem witness_HandshakeMovesTheStacker :
    (∀ st ∈ [{ Stacker.cold with phase := .offered }, { Stacker.cold with phase := .lowering, pausePending := true },
        { Stacker.cold with phase := .lowering, shelf := [⟨⟨3, 3⟩, false, 10, false⟩] }, Stacker.cold],
      let s := stacking 3 st (folder 0)
      s.pins.rst = true ∧ s.line.runs = true ∧ s.enabled 3 = true)
    ∧ ({ folder 0 with line := .ready } : State).line.runs = false := by
  and_intros <;> decide +kernel

theorem witness_DischargeTimeoutStopsTheLane :
    let s := holding 0 toStack (stacking 0 { Stacker.cold with phase := .lowering, timer := some 0 } (folder 107566))
    s.pins.rst = true ∧ (s.stackers[(0 : Lane)]).phase = .lowering ∧ (s.stackers[(0 : Lane)]).timer = some 0
      ∧ NoneOverdue s 0 ∧ (s.stackers[(1 : Lane)]).phase ≠ .lowering := by
  and_intros <;> first | exact none_overdue (by decide) | decide

/-- Complete, and kept open by one offered stacker. -/
theorem witness_DrainEndsWhenItsTermsHold :
    let s := { queued 2 [.separator 90] (stacking 1 { Stacker.cold with phase := .paused } (folder 100)) with line := .drain }
    (s.pins.rst = true ∧ s.line = .drain ∧ (∀ t : Tag, s.record t = none) ∧ ∀ k : Lane,
      (s.stackers[k]).phase ≠ .offered ∧ (s.stackers[k]).phase ≠ .lowering
        ∧ ((s.stackers[k]).phase = .collecting → (s.stackers[k]).stack = none))
    ∧ ((stacking 1 { Stacker.cold with phase := .offered } s).stackers[(1 : Lane)]).phase = .offered := by
  and_intros <;> decide +kernel

theorem witness_LineModeMovesTheLine :
    (∀ l ∈ [LineState.service, .ready, .drain, .run], ({ folder 0 with line := l } : State).pins.rst = true
      ∧ ({ folder 0 with line := l } : State).addressable 1 = true ∧ ({ folder 0 with line := l } : State).line = l)
    ∧ (∃ t : Tag, (holding 23 toStack (folder 0)).record t ≠ none)
    ∧ (let s := queued 3 [.separator 90] (stacking 0 { Stacker.cold with stack := some ⟨⟨3, 3⟩, 9, 0, 10, false⟩ } (folder 100));
      s.line = .run ∧ s.pins.rst = true ∧ s.addressable 1 = true ∧ s.tableEmpty = true)
    ∧ (∀ t : Tag, (folder 0).record t = none) ∧ (∀ k : Lane, (folder 0).queues[k] = []
      ∧ ((folder 0).stackers[k]).phase ≠ .offered ∧ ((folder 0).stackers[k]).phase ≠ .lowering
      ∧ (((folder 0).stackers[k]).phase = .collecting → ((folder 0).stackers[k]).stack = none)) := by
  and_intros <;> decide +kernel

theorem witness_LineResetClearsTheLine :
    busyLine.pins.rst = true ∧ busyLine.addressable 1 = true ∧ State.reset.addressable 30 = true
      ∧ (resetNotes busyLine).length = 1 ∧ resetTally busyLine ≠ busyLine.tally := by
  and_intros <;> decide +kernel

theorem witness_ResetPinAndColdReset : rstLow.pins.rst = false ∧ busyLine.pins.rst = true := by
  and_intros <;> decide +kernel

/-- A hunting receiver; a body that waits for its length byte; one that waits for its last byte. -/
theorem witness_ReceiverTakesOneByte :
    State.reset.pins.rst = true ∧ State.reset.link.receiver = .hunt false ∧ completed [0xD3, 0x2C, 4, 1, 0x11] = none
      ∧ completed [0xD3, 0x2C, 4, 1, 0x11, 1, 0, 0] = none := by
  and_intros <;> decide +kernel

/-- The longest payload and the shortest. -/
theorem witness_EveryTelegramIsReceivedAsSent :
    ∀ n ∈ [0, 40], ∃ (t : Telegram) (s : State), t.payload.length = n ∧ s.pins.rst = true ∧ s.link.receiver = .hunt true
      ∧ s.pending = ([0xD3, 0x2C, t.dest, t.src, t.kind, byteOf t.payload.length] ++ t.payload
        ++ bytes16 (([t.dest, t.src, t.kind, byteOf t.payload.length] ++ t.payload).foldl (fun n b => n + b.toNat) 0 % 65536)).map
          (fun b => Instr.rxdByte b true) ++ [.telegramReceived] := by
  intro n _
  exact ⟨⟨4, 1, 0x10, List.replicate n 255⟩, { folder 0 with
    pending := _, link := { Link.cold with receiver := .hunt true } }, by simp, rfl, rfl, rfl⟩

/-- A telegram that is addressed to the part, of a known kind and of an unknown one. -/
theorem witness_GoodTelegramActsAsItsCommand :
    ∀ kind ∈ [0x10, 0x53, 0x54, (0x40 : Byte)], let t : Telegram := ⟨4, 1, kind, [3]⟩
      let s := { folder 0 with link := { Link.cold with receiver := .body t.bytes } }
      s.pins.rst = true ∧ t.payload.length ≤ 40 ∧ s.node ≠ 31 ∧ t.dest.toNat = s.node.toNat ∧ t.src.toNat ≠ s.node.toNat := by
  decide +kernel

/-- Own, foreign and broadcast telegrams; a check word that does not agree; room for one more, and none. -/
theorem witness_OtherTelegramsAreRemovedOrForwarded :
    (∀ t ∈ [(⟨5, 4, 0x11, [0]⟩ : Telegram), ⟨5, 1, 0x11, [0]⟩, ⟨31, 1, 0x41, []⟩, ⟨31, 1, 0x41, [0]⟩, ⟨31, 1, 0x40, [1]⟩,
        ⟨31, 1, 0x40, [2]⟩, ⟨31, 1, 0x40, [3]⟩, ⟨31, 1, 0x40, [4]⟩, ⟨31, 1, 0x40, [5]⟩],
      completed t.bytes = some (t, bytes16 (checkSum t.body)))
    ∧ completed [0xD3, 0x2C, 5, 1, 0x11, 1, 0, 0, 0x19] = some (⟨5, 1, 0x11, [0]⟩, [0, 0x19])
    ∧ [0, 0x19] ≠ bytes16 (checkSum (⟨5, 1, 0x11, [0]⟩ : Telegram).body)
    ∧ (folder 0).pins.rst = true ∧ (folder 0).node = 4 ∧ (folder 0).addressable 1 = true
    ∧ (0x54 : Byte) ∉ inboundKinds ∧ (folder 0).link.receiver = .hunt false ∧ completed [0xD3, 0x2C, 4] = none := by
  and_intros <;> decide +kernel

theorem witness_BroadcastIsActedOnAndForwarded :
    (folder 0).pins.rst = true ∧ (folder 0).node ≠ 31 ∧ (4 : Byte).toNat = (folder 0).node.toNat
      ∧ (1 : Byte).toNat ≠ (folder 0).node.toNat ∧ ({ folder 0 with line := .drain } : State).line ≠ .run
      ∧ ({ folder 0 with line := .service } : State).line = .service ∧ ({ folder 0 with line := .ready } : State).line = .ready
      ∧ (folder 0).line ≠ .service ∧ (folder 0).line ≠ .ready ∧ (folder 0).line = .run ∧ ([0] : List Byte) ≠ []
      ∧ (∃ t : Tag, (holding 0 toStack (folder 0)).record t ≠ none) := by
  and_intros <;> decide +kernel

/-- The last place of the Report Queue, and none left. -/
theorem witness_OutboundLineQueuesAndSends :
    busyLine.link.transmitter = .forwarding ∧ busyLine.link.forward = [⟨5, 1, 0x11, [0]⟩]
      ∧ State.reset.link.transmitter = .idle ∧ (List.replicate 15 (⟨1, 4, 0x80, []⟩ : Telegram)).length + 1 ≤ 16
      ∧ 16 < (List.replicate 15 (⟨1, 4, 0x80, []⟩ : Telegram)).length + 2 := by
  and_intros <;> decide +kernel

theorem witness_AnnouncementJoinsItsQueue :
    let s := queued 3 (List.replicate 7 (.separator 5)) (folder 8)
    s.pins.rst = true ∧ s.addressable 1 = true ∧ s.line = .run ∧ s.enabled 3 = true ∧ (s.queues[(3 : Lane)]).length < 8 := by
  and_intros <;> decide +kernel

theorem witness_AnnouncementIsRefusedInOrder :
    let s := queued 3 (List.replicate 8 (.separator 5)) (folder 8)
    s.pins.rst = true ∧ s.addressable 1 = true ∧ ([3, 20, 1] : List Byte).length ≠ 4
      ∧ ([3, 20, 1, 44, 0] : List Byte).length ≠ 4 ∧ 3 < (4 : Byte).toNat ∧ 63 < (64 : Byte).toNat ∧ (3 : Byte) = byteOf (3 : Lane)
      ∧ (63 : Byte).toNat ≤ 63 ∧ State.reset.line.runs = false ∧ s.line.runs = true ∧ s.enabled 3 = true
      ∧ 8 ≤ (s.queues[(3 : Lane)]).length ∧ ({ State.reset with line := .run } : State).enabled 3 = false := by
  and_intros <;> decide +kernel

theorem witness_StagingLoadsWriteTheStagingCopy :
    State.reset.pins.rst = true ∧ State.reset.addressable 1 = true ∧ State.reset.line = .init
      ∧ (3 : Byte) ∉ ([1, 2, 4, 8] : List Byte) ∧ 4095 < (0x10 : Byte).toNat * 256 + (0 : Byte).toNat
      ∧ 15 < (16 : Byte).toNat ∧ (16 : Byte) ≠ 255 ∧ 1023 < (4 : Byte).toNat * 256 + (0 : Byte).toNat := by
  and_intros <;> decide +kernel

theorem witness_CommitPutsTheMapInForce :
    staged.pins.rst = true ∧ staged.addressable 1 = true ∧ staged.line = .init ∧ staged.setup.staging.fault = none
      ∧ staged.setup.staging.globals = some ⟨1, 12, 20, 64, 3000, 6000, 40, 1, 20⟩
      ∧ State.reset.setup.staging.fault = some (1, 255) ∧ (folder 0).line ≠ .init := by
  and_intros <;> decide +kernel

theorem witness_WorkingTableLoadsWriteTheirEntry :
    let s := folder 0
    let r := { folder 0 with line := .ready }
    s.pins.rst = true ∧ s.addressable 1 = true ∧ s.line = .run ∧ s.setup.articleLocks[(63 : Article)] = false
      ∧ s.setup.plans[(5 : PlanNo)] ≠ none ∧ s.setup.planLocks[(15 : PlanNo)] = false ∧ s.planOk sheetPlan = true
      ∧ (∀ y ∈ sheetPlan, -128 ≤ y.trim ∧ y.trim ≤ 127) ∧ s.planOk [] = true ∧ r.line = .ready
      ∧ (∀ k : Lane, (15 : BitVec 4).getLsbD k = true → PlanKind.quad.holds k = true ∧ r.map.laneFitted k = true)
      ∧ s.setup.plans[(15 : PlanNo)] = none ∧ s.map.stations[(0 : StationId)] = .absent
      ∧ (s.map.stations[(1 : StationId)]).distance ≤ (s.map.stations[(1 : StationId)]).distance
      ∧ (2 : Byte).getLsbD (1 : Lane) = true := by
  and_intros <;> decide +kernel

theorem witness_LoadsAreRefusedByStateAndLock :
    let s := { folder 0 with setup := { (folder 0).setup with
      articleLocks := upd (folder 0).setup.articleLocks 63 true, planLocks := upd (folder 0).setup.planLocks 15 true } }
    s.pins.rst = true ∧ s.addressable 1 = true ∧ s.line = .run ∧ s.setup.articleLocks[(63 : Article)] = true
      ∧ s.setup.planLocks[(15 : PlanNo)] = true ∧ State.reset.line = .init ∧ State.reset.addressable 1 = true := by
  and_intros <;> decide +kernel

/-- Every phase of the clauses. -/
theorem witness_StackCommandsActByPhase :
    ∀ st ∈ [Stacker.cold, { Stacker.cold with stack := some ⟨⟨3, 3⟩, 1, 0, 10, false⟩ }, { Stacker.cold with phase := .offered },
        { Stacker.cold with phase := .lowering }, { Stacker.cold with phase := .paused },
        { Stacker.cold with phase := .paused, shelf := [⟨⟨3, 3⟩, false, 10, true⟩] }, { Stacker.cold with phase := .stopped },
        { Stacker.cold with phase := .stopped, stack := some ⟨⟨3, 3⟩, 1, 0, 10, false⟩, unplaced := 65535 }],
      let s := stacking 3 st (folder 0)
      s.pins.rst = true ∧ s.addressable 1 = true ∧ s.line.runs = true ∧ s.enabled 3 = true := by
  decide +kernel

theorem witness_GatedCommandsAreRefused :
    (folder 0).addressable 1 = true ∧ ({ folder 0 with line := .ready } : State).line.runs = false
      ∧ ({ State.reset with line := .run } : State).enabled 1 = false ∧ (folder 0).line.runs = true ∧ (folder 0).enabled 3 = true
      ∧ ((folder 0).stackers[(3 : Lane)]).phase ≠ .paused ∧ ((folder 0).outs[(10 : OutId)]).role = .unused
      ∧ ((folder 0).outs[(15 : OutId)]).role = .diverter ∧ 3 < (4 : Byte).toNat ∧ 15 < (16 : Byte).toNat := by
  and_intros <;> decide +kernel

theorem witness_ForcedOutputsFollowTheCommand :
    let s := { folder 0 with line := .service }
    s.pins.rst = true ∧ s.addressable 1 = true ∧ s.line = .service ∧ (s.outs[(0 : OutId)]).role = .station
      ∧ (s.outs[(0 : OutId)]).shot ≠ 0 ∧ (s.outs[(15 : OutId)]).role ≠ .unused := by
  and_intros <;> decide +kernel

theorem witness_TallyIsFrozenAndReadOut :
    (folder 0).pins.rst = true ∧ (folder 0).addressable 1 = true ∧ period.snapRows = []
      ∧ (⟨some ⟨9, 12⟩, ⟨150, 3, 0, false⟩⟩ : SnapRow) :: period.snapRows ≠ [] ∧ (folder 0).link.reports.length < 16
      ∧ 16 ≤ (List.replicate 16 (⟨1, 4, 0x80, []⟩ : Telegram)).length := by
  and_intros <;> decide +kernel

theorem witness_StatusReadShowsTheLane : busyLine.pins.rst = true ∧ busyLine.addressable 1 = true := by
  and_intros <;> decide +kernel

theorem witness_ItemReadShowsTheRecord :
    busyLine.pins.rst = true ∧ busyLine.addressable 1 = true ∧ busyLine.record 23 = none ∧ busyLine.record 0 = some folding := by
  and_intros <;> decide +kernel

end Sys2Proof.Tests
end

section
/-! PROOFS. The advance of the belt (R1 to R4): meeting what is due at the present position keeps the residue, the
position and the prescale value, with nothing due it keeps everything, and a pulse then counts on them. -/

namespace Sys2Proof.Proofs.Belt

open Sys2Proof Sys2Proof.Machine Sys2Proof.Safety

/-! ## The pulse on the Position Unit (R1, R2) -/

theorem pulse_residue (u : PositionUnit) :
    u.pulse.residue = if u.residue + 1 < u.prescale then u.residue + 1 else 0 := by
  unfold PositionUnit.pulse; split <;> rfl

theorem pulse_position (u : PositionUnit) :
    u.pulse.position = if u.residue + 1 < u.prescale then u.position else u.position + 1 := by
  unfold PositionUnit.pulse; split <;> rfl

theorem pulse_frame (u : PositionUnit) :
    u.pulse = { u with residue := u.pulse.residue, position := u.pulse.position } := by
  unfold PositionUnit.pulse; split <;> rfl

/-! ## What is due leaves the belt count (R4) -/

/-- What the belt has come to: all of the Position Unit that a pulse reads. -/
def beltCount (s : State) : Nat × Nat × Pos := (s.unit.prescale, s.unit.residue, s.unit.position)

theorem beltCount_congr {s u : State} (h : s.unit = u.unit) : beltCount s = beltCount u := by
  simp only [beltCount, h]

theorem beltCount_setQual (s : State) (x : Sensor) (q : Qualifier) : beltCount (s.setQual x q) = beltCount s := by
  cases x <;> rfl

theorem trailingEvent_unit (s : State) (x : Sensor) (mark : Pos) : (s.trailingEvent x mark).unit = s.unit := by
  cases x with
  | ls k => exact (routeTrailing_frame s k mark).2.2.2.1
  | es k => rfl

/-- R11: a confirmation moves its qualifier and nothing else of the Position Unit. -/
theorem beltCount_confirmReached (s : State) (x : Sensor) : beltCount (s.confirmReached x) = beltCount s := by
  unfold State.confirmReached
  split
  · rfl
  · rfl
  · split
    · rw [beltCount_congr (trailingEvent_unit ..), beltCount_setQual]
    · rfl

theorem beltCount_settle (s : State) : beltCount s.settle = beltCount s := by
  have hunit : s.settle.unit = s.settleQualifiers.unit := by simp [State.settle]
  calc beltCount s.settle
      = beltCount s.settleQualifiers := beltCount_congr hunit
    _ = beltCount s := foldl_keeps beltCount _ beltCount_confirmReached _ s

/-! ## With nothing due, nothing is met (R4, R7) -/

/-- R11: a qualifier that does not confirm at the present position stays as it is. -/
theorem confirmReached_none {s : State} {x : Sensor} (h : dueAt s.position (s.qual x) = false) :
    s.confirmReached x = s := by
  unfold State.confirmReached
  split
  · rfl
  · rfl
  · next mark confirm hq =>
    have hc : confirm ≠ s.position := by simpa [dueAt, hq] using h
    exact if_neg hc

/-- R48: a lane without a jam position here has no JAM. -/
theorem jam_none {s : State} {k : Lane} (h : ∀ t : Tag, ∀ r ∈ s.record t, s.jamPosition r ≠ some s.position) :
    s.jam k = s := by
  have hdue : ¬ s.jamDue k = true := by
    intro hj
    obtain ⟨r, hr, hp⟩ := (Option.any_eq_true _ _).mp hj
    obtain ⟨t, -, ht⟩ := Option.bind_eq_some_iff.mp hr
    exact h t r ht (of_decide_eq_true hp)
  exact if_neg hdue

/-- R84: a busy-until that does not stand here stays as it is. -/
theorem busyReached_none {s : State} {o : OutId} (h : s.sched.busy[o] ≠ some s.position) : s.busyReached o = s :=
  if_neg h

/-- R161: a drain that is not complete goes on. -/
theorem completeDrain_none {s : State} (h : ¬(s.line = .drain ∧ s.drainDone = true)) : s.completeDrain = s :=
  if_neg h

theorem settleFires_none {s : State} (h : ∀ e ∈ s.sched.entries, e.pos ≠ s.position) : s.settleFires = s := by
  have hnil : s.sched.entries.filter (fun e => decide (e.pos = s.position)) = [] := by simpa using h
  rw [State.settleFires, hnil, List.foldl_nil]

theorem settle_quiet {s : State} (h : Quiet s) : s.settle = s := by
  obtain ⟨hqual, hover, hfire, hjam, hbusy, hqueue, hshot, hdis, hdrain⟩ := h
  have hqualifiers : s.settleQualifiers = s := List.foldl_fixed' (fun x => confirmReached_none (by
    cases x with
    | ls k => exact (hqual k).1
    | es k => exact (hqual k).2)) _
  have hoverlength : s.settleOverlength = s := List.foldl_fixed' (fun t => overlength_none (hover t)) _
  have hjams : s.settleJams = s := List.foldl_fixed' (fun _ => jam_none hjam) _
  have hbusies : s.settleBusy = s := List.foldl_fixed' (fun o => busyReached_none (hbusy o)) _
  have hexpiries : s.settleExpiries = s := List.foldl_fixed' (fun k => expireHeads_none (hqueue k)) _
  have hshots : s.settleShots = s := List.foldl_fixed' (fun o => expireShot_none (hshot o)) _
  have hdischarges : s.settleDischarges = s := List.foldl_fixed' (fun k => dischargeTimeout_none (hdis k)) _
  rw [State.settle, hqualifiers, hoverlength, settleFires_none hfire, hjams, hbusies, hexpiries, hshots, hdischarges,
    completeDrain_none hdrain]

/-! ## ENCODER_PULSE -/

theorem exec_encoderPulse_high {s : State} (h : s.pins.rst = true) :
    exec .encoderPulse s = .next (s.settle.setUnit s.settle.unit.pulse) := by
  simp only [exec, execEncoderPulse, whenUp_high h]

/-- R165: while RST is low no pulse is counted. -/
theorem exec_encoderPulse_low {s : State} (h : s.pins.rst = false) : exec .encoderPulse s = .next s := by
  simp only [exec, execEncoderPulse, whenUp_low h]

/-- Settles O14: what is due keeps the belt count, so the pulse counts on the values it found; with nothing due it is
the pulse on the Position Unit alone. -/
theorem encoderPulseCountsTheBelt : Obligations.EncoderPulseCountsTheBelt := by
  intro s
  have hcount : beltCount s.settle = beltCount s := beltCount_settle s
  simp only [beltCount, Prod.mk.injEq] at hcount
  obtain ⟨hprescale, hresidue, hposition⟩ := hcount
  refine ⟨fun hrst => ⟨_, exec_encoderPulse_high hrst, ?_, ?_, fun hquiet => ?_⟩, exec_encoderPulse_low⟩
  · rw [setUnit_unit, pulse_residue, hprescale, hresidue]
  · rw [setUnit_unit, pulse_position, hprescale, hresidue, hposition]
  · rw [settle_quiet hquiet, setUnit_unit, ← pulse_frame]
    rfl

end Sys2Proof.Proofs.Belt
end

section
/-! PROOFS. The fold computation (R61 to R66): what a computed step list holds, step by step, and the chain of fire
positions it spells. -/

namespace Sys2Proof.Proofs.FoldChain

open Sys2Proof Sys2Proof.Machine

/-! ## The offset of a step (R64, R65) -/

theorem margin_le_foldOffset {margin len : Nat} (st : FoldStep) (h : 2 * margin + 1 ≤ len) :
    margin ≤ foldOffset margin len st := by
  simp only [foldOffset, clampOffset]
  split
  · exact le_rfl
  · split <;> omega

theorem foldOffset_le_length {margin len : Nat} (st : FoldStep) (h : 2 * margin + 1 ≤ len) :
    foldOffset margin len st ≤ len := by
  simp only [foldOffset, clampOffset]
  split
  · omega
  · split <;> omega

theorem foldedLength_le {len d : Nat} (h : d ≤ len) : foldedLength len d ≤ len :=
  max_le h (Nat.sub_le len d)

/-! ## Where the packet's leading edge is counted from (R66) -/

/-- Where the leading edge that a step meets was at the measuring line: the lead for the first step, and for a later
one the fire position of the step before it less that step's station distance. -/
def edgeRef (lead : Pos) : Option (Pos × Nat) → Pos
  | none => lead
  | some (fire, before) => minus fire before

theorem firePosition_eq (lead : Pos) (prev : Option (Pos × Nat)) (dist d : Nat) :
    firePosition lead prev dist d = edgeRef lead prev + BitVec.ofNat 24 dist + BitVec.ofNat 24 d := by
  cases prev with
  | none => rfl
  | some p =>
    obtain ⟨fire, before⟩ := p
    simp only [firePosition, edgeRef, plus, minus]
    ring

/-- A fold moves the leading edge back by its offset. -/
theorem edgeRef_firePosition (lead : Pos) (prev : Option (Pos × Nat)) (dist d : Nat) :
    edgeRef lead (some (firePosition lead prev dist d, dist)) = edgeRef lead prev + BitVec.ofNat 24 d := by
  simp only [edgeRef, minus, firePosition_eq]
  ring

/-! ## A computed step list (R61, R62) -/

/-- The step as the computation leaves it on a packet of length `len`. -/
def computedStep (m : StationMap) (lead : Pos) (len : Nat) (prev : Option (Pos × Nat)) (st : FoldStep) : FoldStep :=
  { st with
    d := some (foldOffset m.params.margin len st)
    fire := some (firePosition lead prev (m.stations[st.station]).distance (foldOffset m.params.margin len st)) }

/-- The sum d_0 + … of the offsets of a step list, a step without one counting nothing. -/
def offsetSum (steps : List FoldStep) : Nat := (steps.map (fun y => y.d.getD 0)).sum

@[simp] theorem offsetSum_nil : offsetSum [] = 0 := rfl

@[simp] theorem offsetSum_cons (x : FoldStep) (rest : List FoldStep) :
    offsetSum (x :: rest) = x.d.getD 0 + offsetSum rest := List.sum_cons

theorem offsetSum_take_succ {steps : List FoldStep} {j : Nat} {y : FoldStep} (h : steps[j]? = some y) :
    offsetSum (steps.take (j + 1)) = offsetSum (steps.take j) + y.d.getD 0 := by
  simp [offsetSum, List.take_add_one, h]

section
variable {m : StationMap} {lead : Pos} {len : Nat} {prev : Option (Pos × Nat)}

/-- What a computation that reaches every step does with the first: the packet is long enough, and the later steps
are computed on the longer portion, from this step's fire position. -/
theorem computeSteps_cons_computed {st : FoldStep} {rest steps' : List FoldStep}
    (h : computeSteps m lead len prev (st :: rest) = (steps', true)) :
    2 * m.params.margin + 1 ≤ len ∧ ∃ rest', steps' = computedStep m lead len prev st :: rest' ∧
      let d := foldOffset m.params.margin len st
      let dist := (m.stations[st.station]).distance
      computeSteps m lead (foldedLength len d) (some (firePosition lead prev dist d, dist)) rest = (rest', true) := by
  rw [computeSteps] at h
  split at h
  · simp at h
  · next hlen =>
    obtain ⟨hsteps, hall⟩ := Prod.mk.inj h
    exact ⟨Nat.le_of_not_lt hlen, _, hsteps.symm, Prod.ext rfl hall⟩

theorem computeSteps_length {steps steps' : List FoldStep}
    (h : computeSteps m lead len prev steps = (steps', true)) : steps'.length = steps.length := by
  induction steps generalizing len prev steps' with
  | nil => rw [← (Prod.mk.inj h).1]
  | cons st rest ih =>
    obtain ⟨-, rest', rfl, hrest⟩ := computeSteps_cons_computed h
    simpa using ih hrest

/-- R64, R65: every step has its offset, at least the margin and no more than the packet's first length. -/
theorem computeSteps_offset {steps steps' : List FoldStep}
    (h : computeSteps m lead len prev steps = (steps', true)) {x : FoldStep} (hx : x ∈ steps') :
    ∃ d, x.d = some d ∧ m.params.margin ≤ d ∧ d ≤ len := by
  induction steps generalizing len prev steps' with
  | nil => simp [← (Prod.mk.inj h).1] at hx
  | cons st rest ih =>
    obtain ⟨hlen, rest', rfl, hrest⟩ := computeSteps_cons_computed h
    have hd := foldOffset_le_length st hlen
    cases hx with
    | head => exact ⟨_, rfl, margin_le_foldOffset st hlen, hd⟩
    | tail _ hx =>
      obtain ⟨d, hxd, hmargin, hle⟩ := ih hrest hx
      exact ⟨d, hxd, hmargin, hle.trans (foldedLength_le hd)⟩

/-- R66, unrolled from any step of the chain. -/
theorem computeSteps_fire {steps steps' : List FoldStep}
    (h : computeSteps m lead len prev steps = (steps', true)) {j : Nat} {x : FoldStep} (hx : steps'[j]? = some x) :
    x.fire = some (edgeRef lead prev + BitVec.ofNat 24 (m.stations[x.station]).distance
      + BitVec.ofNat 24 (offsetSum (steps'.take (j + 1)))) := by
  induction steps generalizing len prev steps' j with
  | nil => simp [← (Prod.mk.inj h).1] at hx
  | cons st rest ih =>
    obtain ⟨-, rest', rfl, hrest⟩ := computeSteps_cons_computed h
    cases j with
    | zero =>
      obtain rfl := Option.some.inj hx
      simp [computedStep, firePosition_eq]
    | succ j =>
      rw [ih hrest hx, edgeRef_firePosition, List.take_succ_cons, offsetSum_cons, BitVec.ofNat_add]
      simp only [computedStep, Option.getD_some]
      congr 1
      ring

end

/-! ## From a step to the next -/

/-- Two stations on one belt, the second further on: the distance between the fires, in pulses, as the Line Position
counts it. -/
theorem wrapDist_chain {f : Pos} {near far d : Nat} (hfar : near < far) (hbound : far + d < 16777216) :
    wrapDist f (f + BitVec.ofNat 24 far - BitVec.ofNat 24 near + BitVec.ofNat 24 d) = far - near + d := by
  have hsplit : BitVec.ofNat 24 far = BitVec.ofNat 24 (far - near) + BitVec.ofNat 24 near := by
    rw [← BitVec.ofNat_add, Nat.sub_add_cancel hfar.le]
  have hdiff : f + BitVec.ofNat 24 far - BitVec.ofNat 24 near + BitVec.ofNat 24 d - f
      = BitVec.ofNat 24 (far - near + d) := by
    rw [hsplit, BitVec.ofNat_add]
    ring
  rw [wrapDist, hdiff, BitVec.toNat_ofNat, Nat.mod_eq_of_lt (by omega)]

theorem ahead_iff_wrapDist {now x : Pos} : ahead now x = true ↔ 1 ≤ wrapDist now x ∧ wrapDist now x ≤ 8388607 :=
  decide_eq_true_iff

/-- Settles O23: each fire is the edge reference of the chain's start plus the station distance plus the offsets so
far, so two neighbours differ by the stations' distance and the later offset; that offset is within the margins. -/
theorem fireChainUnrolls : Obligations.FireChainUnrolls := by
  intro m lead len steps steps' h
  refine ⟨computeSteps_length h, fun j x hx => ?_⟩
  obtain ⟨d, hd, -, -⟩ := computeSteps_offset h (List.mem_of_getElem? hx)
  refine ⟨d, hd, computeSteps_fire h hx, fun y dy f fy hy hdy hf hfy => ?_⟩
  obtain ⟨d', hd', hmargin, hle⟩ := computeSteps_offset h (List.mem_of_getElem? hy)
  obtain rfl : d' = dy := Option.some.inj (hd'.symm.trans hdy)
  have hfire := Option.some.inj (hf.symm.trans (computeSteps_fire h hx))
  have hnext : fy = f + BitVec.ofNat 24 (m.stations[y.station]).distance
      - BitVec.ofNat 24 (m.stations[x.station]).distance + BitVec.ofNat 24 d' := by
    rw [Option.some.inj (hfy.symm.trans (computeSteps_fire h hy)), hfire, offsetSum_take_succ hy, hdy,
      Option.getD_some, BitVec.ofNat_add]
    ring
  refine ⟨hnext, fun hrise hfar hone hlen => ?_⟩
  have hdist : wrapDist f fy = (m.stations[y.station]).distance - (m.stations[x.station]).distance + d' :=
    hnext ▸ wrapDist_chain hrise (by omega)
  exact ⟨hone.trans hmargin, ahead_iff_wrapDist.mpr (by omega), hdist⟩

end Sys2Proof.Proofs.FoldChain
end

section
/-! PROOFS. The Tally Unit's commands (R135 to R138, R140, R141): what a freeze takes into the snapshot, and what a
read takes out of it. -/

namespace Sys2Proof.Proofs.Snapshot

open Sys2Proof Sys2Proof.Machine

/-! ## The payload of TALLY_FREEZE (R136) -/

@[simp] theorem byteFlag_flagByte (b : Bool) : byteFlag (flagByte b) = some b := by cases b <;> rfl

theorem byteFlag_none {b : Byte} (h0 : b ≠ 0) (h1 : b ≠ 1) : byteFlag b = none :=
  (if_neg h0).trans (if_neg h1)

theorem tallyFreeze_flag (s : State) (src : Byte) (clear : Bool) :
    s.tallyFreeze src [flagByte clear] = s.freezeTally src clear := by
  simp [State.tallyFreeze]

theorem tallyFreeze_invalid (s : State) (src : Byte) {p : List Byte} (h : p ∉ ([[0], [1]] : List (List Byte))) :
    s.tallyFreeze src p = s.answer src kindTallyFreeze .invalid := by
  match p with
  | [] => rfl
  | [b] =>
    obtain ⟨h0, h1⟩ : b ≠ 0 ∧ b ≠ 1 := by simpa using h
    simp [State.tallyFreeze, byteFlag_none h0 h1]
  | _ :: _ :: _ => rfl

/-! ## The freeze (R137) -/

theorem isZero_iff (r : TallyRow) : r.isZero = true ↔ r.pieces = 0 ∧ r.stackCount = 0 ∧ r.rejects = 0 := by
  simp [TallyRow.isZero, and_assoc]

theorem frozenRows_eq (t : Tally) :
    t.frozenRows = t.live.map (fun x => ⟨some x.1, x.2⟩)
      ++ (if t.overflow.pieces = 0 ∧ t.overflow.stackCount = 0 ∧ t.overflow.rejects = 0 then []
          else [⟨none, t.overflow⟩]) := by
  simp only [Tally.frozenRows, isZero_iff]

theorem freezeTally_taken {s : State} (src : Byte) (clear : Bool) (h : s.tally.snapRows = []) :
    s.freezeTally src clear = (s.setTally (s.tally.freeze s.position clear)).report
      [s.answerTelegram src kindTallyFreeze .accepted 0 ((s.tally.freeze s.position clear).freezeBody true)] :=
  if_pos h

theorem freezeTally_notTaken {s : State} (src : Byte) (clear : Bool) (h : s.tally.snapRows ≠ []) :
    s.freezeTally src clear =
      s.report [s.answerTelegram src kindTallyFreeze .accepted 0 (s.tally.freezeBody false)] :=
  if_neg h

/-! ## The read (R140, R141) -/

theorem dropRead_room {s : State} (h : s.link.reports.length < 16) :
    s.dropRead = s.setTally { s.tally with snapRows := s.tally.snapRows.drop 3 } :=
  if_pos (decide_eq_true h)

theorem dropRead_full {s : State} (h : 16 ≤ s.link.reports.length) : s.dropRead = s :=
  if_neg (by simpa [State.reportRoom] using Nat.lt_succ_of_le h)

/-- R177: the first byte of a row holds its group, or 16 for the overflow row, and the saturation flag; the second
its article, or 255. -/
theorem snapRow_bytes : SnapRow.bytes = fun r =>
    [byteOf ((match r.key with
        | some key => key.group.1
        | none => 16) + (if r.row.saturated then 128 else 0)), (match r.key with
        | some key => byteOf key.article
        | none => 255)]
      ++ bytes24 r.row.pieces ++ bytes24 r.row.stackCount ++ bytes24 r.row.rejects := by
  funext r
  obtain ⟨key, row⟩ := r
  cases key <;> rfl

theorem readDetail_eq (t : Tally) :
    t.readDetail = byteOf ((if t.snapStamp = none then 127 else t.snapRows.length - 3)
      + (if t.snapCleared then 128 else 0)) := by
  simp only [Tally.readDetail, Option.isNone_iff_eq_none]

theorem tallyRead_room {s : State} (src : Byte) (h : s.link.reports.length < 16) :
    s.tallyRead src [] = (s.setTally { s.tally with snapRows := s.tally.snapRows.drop 3 }).report
      [s.answerTelegram src kindTallyRead .accepted s.tally.readDetail s.tally.readBody] := by
  simp only [State.tallyRead, dropRead_room h]

/-- R141: without room the answer is lost, and the rows stay for the next read. -/
theorem tallyRead_full {s : State} (src : Byte) (h : 16 ≤ s.link.reports.length) :
    s.tallyRead src [] = s.setLoss true := by
  simp only [State.tallyRead, dropRead_full h]
  exact report_full (Nat.lt_succ_of_le h)

theorem tallyRead_invalid (s : State) (src : Byte) {p : List Byte} (h : p ≠ []) :
    s.tallyRead src p = s.answer src kindTallyRead .invalid := by
  cases p with
  | nil => exact absurd rfl h
  | cons b p => rfl

/-! ## The two commands, as their telegrams reach the part -/

section

variable {s : State} {src : Byte} (hrst : s.pins.rst = true) (haddr : s.addressable src = true)

include hrst haddr

theorem exec_tallyFreeze (p : List Byte) : exec (.tallyFreeze src p) s = .next (s.tallyFreeze src p) := by
  simp only [exec, execTallyFreeze, whenAddressed_acts hrst haddr]

theorem exec_tallyRead (p : List Byte) : exec (.tallyRead src p) s = .next (s.tallyRead src p) := by
  simp only [exec, execTallyRead, whenAddressed_acts hrst haddr]

end

/-- Settles O58, command by command: the freeze by whether the snapshot has rows, the read by whether its answer finds
room, and either with a payload of another form. -/
theorem tallyIsFrozenAndReadOut : Obligations.TallyIsFrozenAndReadOut := by
  intro s src clear hrst haddr t freeze answer stamp zero rows
  have hfreeze : exec freeze s = .next (s.freezeTally src clear) := by
    rw [← tallyFreeze_flag]
    exact exec_tallyFreeze hrst haddr _
  refine ⟨fun hempty => ?taken, fun hrows => ?notTaken, fun hroom => ?read, fun hfull => ?lost,
    fun p => ⟨fun hp => ?freezeInvalid, fun hp => ?readInvalid⟩⟩
  case taken =>
    have hrows : rows = t.frozenRows := (frozenRows_eq t).symm
    rw [hfreeze, freezeTally_taken src clear hempty, hrows]
    rfl
  case notTaken =>
    rw [hfreeze, freezeTally_notTaken src clear hrows]
    rfl
  case read =>
    rw [exec_tallyRead hrst haddr, tallyRead_room src hroom, readDetail_eq, Tally.readBody, snapRow_bytes]
    rfl
  case lost =>
    rw [exec_tallyRead hrst haddr, tallyRead_full src hfull]
    rfl
  case freezeInvalid =>
    rw [exec_tallyFreeze hrst haddr, tallyFreeze_invalid s src hp]
    rfl
  case readInvalid =>
    rw [exec_tallyRead hrst haddr, tallyRead_invalid s src hp]
    rfl

end Sys2Proof.Proofs.Snapshot
end

section
/-! PROOFS. What a step can do to the state, said once: the single changes that every command is made of, with what is
known where each is made. A predicate that each of them keeps is kept by every shared operation. -/

namespace Sys2Proof.Proofs.Changes

open Sys2Proof Sys2Proof.Machine Sys2Proof.Safety

/-! ## The single changes -/

/-- R110: an arrival is a stray or the piece of a record that was live in a state with `P`. -/
def Comes (P : State → Prop) (a : Arrival) : Prop :=
  a = .stray ∨ ∃ (s : State) (t : Tag) (r : ItemRecord), P s ∧ s.record t = some r ∧ a = r.arrival

/-- Chapter 7: the changes of one stacker record on a line that `runs` or not, with shelf capacity `cap`, by arrivals
with `A`. -/
inductive StackerMove (A : Arrival → Prop) (runs : Bool) (cap : Nat) (st : Stacker) : Stacker → Prop
  | opens (a : Arrival) (ha : A a) (hphase : st.phase = .collecting ∨ st.phase = .stopped) (hstack : st.stack = none) :
      StackerMove A runs cap st { st with stack := some (st.openWith (a.piece none)) }
  | adds (a : Arrival) (o : OpenStack) (hstack : st.stack = some o)
      (hphase : (st.phase = .collecting ∧ o.pieces + 1 ≠ o.target) ∨ (st.phase = .stopped ∧ o.pieces < 65535)) :
      StackerMove A runs cap st { st with stack := some (o.add a) }
  | closes (hruns : runs = true) (hstack : st.stack.isSome) : StackerMove A runs cap st (st.closed .offered)
  | shelves (a : Arrival) (ha : A a) (hphase : st.phase ≠ .collecting) (hroom : st.shelf.length < cap) :
      StackerMove A runs cap st (st.shelve a)
  | unplaces (n : Nat) : StackerMove A runs cap st { st with unplaced := holdAt65535 n }
  | stops : StackerMove A runs cap st st.stop
  | lowers (n : Nat) (hruns : runs = true) (hphase : st.phase = .offered) :
      StackerMove A runs cap st { st with phase := .lowering, timer := some n }
  | discharges (hphase : st.phase = .lowering) : StackerMove A runs cap st st.dischargeDone
  | pauses : StackerMove A runs cap st st.pause
  | resumes (hphase : st.phase = .paused) : StackerMove A runs cap st st.released
  | targets (value : Byte) : StackerMove A runs cap st { st with override := overrideFor value }
  | dumps (hphase : st.phase = .stopped) : StackerMove A runs cap st st.dumpShelf
  | clears (hphase : st.phase = .stopped) (hstack : st.stack = none) :
      StackerMove A runs cap st { st.dumpShelf with phase := .collecting }

/-- R34, R161: what a line that leaves RUN and DRAIN has come to. -/
def Emptied (s : State) : Prop :=
  (∀ t : Tag, s.record t = none) ∧ (∀ k : Lane, s.queues[k] = [])
    ∧ ∀ k : Lane, (s.stackers[k]).phase ≠ .offered ∧ (s.stackers[k]).phase ≠ .lowering

/-- R151 to R155: what a load to a working table makes of the tables `x`. -/
structure Loaded (x y : Setup) : Prop where
  staging : y.staging = x.staging
  committed : y.committed = x.committed
  lanes : y.lanes = x.lanes ∨ y.lanes.isSome
  articles : ∀ a : Article, y.articles[a] = x.articles[a]
    ∨ (x.articleLocks[a] = false ∧ ∀ row ∈ y.articles[a], targetFits row.target)
  plans : ∀ n : PlanNo, y.plans[n] = x.plans[n] ∨ (x.planLocks[n] = false ∧ ∀ steps ∈ y.plans[n], steps.length ≤ 4)
  articleLocks : ∀ a : Article, x.articleLocks[a] = true → y.articleLocks[a] = true
  planLocks : ∀ n : PlanNo, x.planLocks[n] = true → y.planLocks[n] = true

/-- `P` is kept by every change but those of the receiver and of the reset pin; `C` holds of the telegrams that come in. A
field with a default is one that a predicate need not name when the change leaves what it speaks of. -/
structure Kept (P : State → Prop) (C : Telegram → Prop) : Prop where
  loss : ∀ {s : State} (b : Bool), P s → P (s.setLoss b) := by intros; assumption
  draws : ∀ {s : State} (n : Nat), P s → P (s.setFreeIndex n) := by intros; assumption
  reports : ∀ {s : State} {ts : List Telegram}, P s →
    ((∀ t ∈ ts, t.payload.length ≤ 40) ∨ ∃ src t, ts = s.itemAnswers src t) →
    s.link.reports.length + ts.length ≤ 16 →
    P (s.setLink { s.link with reports := s.link.reports ++ ts }.start) := by intros; assumption
  forwards : ∀ {s : State} {t : Telegram}, P s → C t → s.link.forward.length < 2 →
    P (s.setLink { s.link with forward := s.link.forward ++ [t] }.start) := by intros; assumption
  miscounts : ∀ {s : State}, P s → P (s.setLink s.link.countError) := by intros; assumption
  sends : ∀ {s : State}, P s → P (s.setLink s.link.sent) := by intros; assumption
  credits : ∀ {s : State} (key : Key) (p n r : Nat), P s → P (s.credit key p n r) := by intros; assumption
  freezes : ∀ {s : State} (clear : Bool), P s → P (s.setTally (s.tally.freeze s.position clear)) := by
    intros; assumption
  readsOut : ∀ {s : State}, P s → P (s.setTally { s.tally with snapRows := s.tally.snapRows.drop 3 }) := by
    intros; assumption
  queues : ∀ {s : State} (k : Lane) {q : List QueueEntry}, P s →
    q.length ≤ (s.queues[k]).length ∨ (s.line.runs = true ∧ q.length ≤ 8) → P (s.setQueue k q) := by intros; assumption
  outs : ∀ {s : State} (x : Vector OutputRecord 16), P s → P (s.setOuts x) := by intros; assumption
  busies : ∀ {s : State} (x : Vector (Option Pos) 16), P s → P (s.setSched { s.sched with busy := x }) := by
    intros; assumption
  books : ∀ {s : State} {e : FireEntry}, P s → (s.record e.tag).isSome → P (s.insertEntry e) := by intros; assumption
  unbooks : ∀ {s : State} {es : List FireEntry}, P s → es ⊆ s.sched.entries → P (s.setEntries es) := by
    intros; assumption
  rewrites : ∀ {s : State} {t : Tag} {r r' : ItemRecord}, P s → s.record t = some r → r'.lane = r.lane →
    r'.target = r.target → r'.steps.length = r.steps.length → P (s.setRecord t r') := by intros; assumption
  retires : ∀ {s : State} {t : Tag} {r : ItemRecord} (f : Fate), P s → s.record t = some r →
    P (((s.freeSlot t).cancelAll t).count r.lane f.counter) := by intros; assumption
  enters : ∀ {s : State} (k : Lane) (p : Pos) (b : Bound) {t : Tag}, P s → s.line.runs = true → s.record t = none →
    P ((s.addRecord t (s.boundRecord k p b)).count k .entered) := by intros; assumption
  stackers : ∀ {s : State} {k : Lane} {st : Stacker}, P s →
    StackerMove (Comes P) s.line.runs (s.shelfCap k) s.stackers[k] st → P (s.setStacker k st) := by intros; assumption
  ticks : ∀ {s : State}, P s → P s.tick := by intros; assumption
  lines : ∀ {s : State} {x : LineState}, P s → s.line ≠ .init → x ≠ .init →
    x.runs = true ∨ s.line.runs = false ∨ Emptied s → P (s.setLine x) := by intros; assumption
  stages : ∀ {s : State} {m : StationMap}, P s → s.line = .init →
    (∀ k : Lane, m.diverters[k] = s.setup.staging.diverters[k] ∨ (m.diverters[k]).cap ≤ 3) →
    P (s.setSetup { s.setup with staging := m }) := by intros; assumption
  commits : ∀ {s : State}, P s → s.line = .init → P (s.commit.setLine .ready) := by intros; assumption
  loads : ∀ {s : State} {x : Setup}, P s → s.line ≠ .init → Loaded s.setup x → P (s.setSetup x) := by intros; assumption
  covers : ∀ {s : State} (x : Sensor), P s → P ((s.setPin x true).setQual x .covered) := by
    intro s x; cases x <;> (intros; assumption)
  uncovers : ∀ {s : State} (x : Sensor) {q : Qualifier}, P s → q ≠ .covered → P ((s.setPin x false).setQual x q) := by
    intro s x; cases x <;> (intros; assumption)
  confirms : ∀ {s : State} (x : Sensor) {q : Qualifier}, P s → s.qual x ≠ .covered → q ≠ .covered → P (s.setQual x q) := by
    intro s x; cases x <;> (intros; assumption)
  levels : ∀ {s : State} (x : Sensor) (b : Bool), P s → s.pins.rst = false → P (s.setPin x b) := by
    intro s x; cases x <;> (intros; assumption)
  pulses : ∀ {s : State}, P s → P (s.setUnit s.unit.pulse) := by intros; assumption
  resets : ∀ {s u : State}, P s → ResetFrom s u → u.link = s.link → u.loss = s.loss → P u

section
variable {P : State → Prop} {C : Telegram → Prop} {s : State} (K : Kept P C)

/-! ## The outbound line -/

theorem note_fits (n : Note) : n.payload.length ≤ 40 := by
  cases n <;> simp [Note.payload]

namespace Kept
include K

theorem report {ts : List Telegram} (h : P s) (hts : (∀ t ∈ ts, t.payload.length ≤ 40) ∨ ∃ src t, ts = s.itemAnswers src t) :
    P (s.report ts) := by
  rcases Nat.lt_or_ge 16 (s.link.reports.length + ts.length) with hfull | hroom
  · rw [report_full hfull]
    exact K.loss true h
  · rw [report_room hroom]
    exact K.reports h hts hroom

theorem emit (n : Note) (h : P s) : P (s.emit n) := by
  unfold State.emit
  split
  · exact h
  · exact K.report h (.inl (by simpa [State.noteTelegram] using note_fits n))

theorem emits (l : List Note) (h : P s) : P (l.foldl State.emit s) :=
  List.foldlRecOn l _ h fun _ hb n _ => K.emit n hb

theorem answer (src kind : Byte) (code : Code) (h : P s) : P (s.answer src kind code) :=
  K.report h (.inl (by simp [State.answerTelegram]))

theorem forward {t : Telegram} (hc : C t) (h : P s) : P (s.forward t) := by
  unfold State.forward
  split
  · exact K.forwards h hc ‹_›
  · exact K.miscounts h

theorem emitLosts (k : Lane) (c : LostCause) (l : List QueueEntry) (h : P s) : P (l.foldl (State.emitLost k c) s) :=
  List.foldlRecOn l _ h fun _ hb _ _ => K.emit _ hb

/-! ## Stacks and drain closes -/

theorem closeStack (k : Lane) (c : CloseCause) (hruns : s.line.runs = true) (h : P s) : P (s.closeStack k c .offered) := by
  cases ho : (s.stackers[k]).stack with
  | none => rwa [closeStack_empty ho]
  | some o =>
    have ho' : s.stackers[k.1].stack = some o := ho
    rw [closeStack_open ho]
    refine K.stackers (K.credits _ _ _ _ (K.emit _ h)) ?_
    simpa using StackerMove.closes (by simpa using hruns) (by simp [ho'])

theorem drainClose (k : Lane) (h : P s) : P (s.drainClose k) := by
  simp only [State.drainClose]
  split
  · next hd => exact K.closeStack k .drain (by rw [hd.1]; rfl) h
  · exact h

theorem drainCloses (h : P s) : P s.drainCloses :=
  List.foldlRecOn _ _ h fun _ hb k _ => K.drainClose k hb

/-! ## Retirement -/

theorem passBatch (t : Tag) (r : ItemRecord) (f : Fate) (h : P s) : P (s.passBatch t r f) := by
  simp only [State.passBatch]
  split
  · split
    · exact h
    · split
      · exact h
      · next hx => exact K.rewrites h hx rfl rfl rfl
  · exact h

theorem retire {t : Tag} {r : ItemRecord} (f : Fate) (hr : s.record t = some r) (h : P s) : P (s.retire t r f) := by
  have hlive : ∃ r', (s.passBatch t r f).record t = some r' ∧ r'.lane = r.lane := by
    rw [passBatch_record, hr]
    split <;> simp
  obtain ⟨r', hr', hlane⟩ := hlive
  have := K.retires f (K.passBatch t r f h) hr'
  rwa [hlane] at this

/-! ## The schedule and the lane-stop conversion -/

theorem bookDiverter (k : Lane) {t : Tag} (kind : FireKind) (p : Pos) (ht : (s.record t).isSome) (h : P s) :
    P (s.bookDiverter k t kind p) := by
  unfold State.bookDiverter
  split
  · exact K.books h ht
  · exact h

theorem cancelFolds (t : Tag) (h : P s) : P (s.cancelFolds t) := K.unbooks h List.filter_sublist.subset

end Kept

@[simp] theorem record_bookDiverter (s : State) (k : Lane) (t : Tag) (kind : FireKind) (p : Pos) (t' : Tag) :
    (s.bookDiverter k t kind p).record t' = s.record t' := record_congr (by simp) t'

@[simp] theorem record_cancelFolds (s : State) (t t' : Tag) : (s.cancelFolds t).record t' = s.record t' :=
  record_congr (by simp) t'

theorem record_setRecord_self (s : State) (t : Tag) (r : ItemRecord) : (s.setRecord t r).record t = some r := by
  simp [State.record]

@[simp] theorem cancelPending_length (steps : List FoldStep) : (cancelPending steps).length = steps.length :=
  List.length_map ..

@[simp] theorem cancelEvery_length (steps : List FoldStep) : (cancelEvery steps).length = steps.length :=
  List.length_map ..

namespace Kept
include K

theorem convertRecord (k : Lane) {t : Tag} {r : ItemRecord} (hr : s.record t = some r) (h : P s) :
    P (s.convertRecord k t r) := by
  have hopen := K.rewrites (r' := { r with steps := cancelPending r.steps, reason := some .laneStopped })
    (K.cancelFolds t h) ((record_cancelFolds ..).trans hr) rfl rfl (cancelPending_length _)
  have hbooked := K.bookDiverter k .divertOpen (s.openAt k r.headRef) (by rw [record_setRecord_self]; rfl) hopen
  simp only [State.convertRecord]
  split
  · exact hbooked
  · exact K.bookDiverter k _ _ (by rw [record_setRecord_self]; rfl)
      (K.rewrites hbooked ((record_bookDiverter ..).trans (record_setRecord_self ..)) rfl rfl rfl)

theorem convertOne (k : Lane) (t : Tag) (h : P s) : P (State.convertOne k s t) := by
  unfold State.convertOne
  split
  · exact h
  · next hr =>
    split
    · exact K.convertRecord k hr h
    · exact h

theorem convertLane (k : Lane) (h : P s) : P (s.convertLane k) :=
  List.foldlRecOn _ _ h fun _ hb t _ => K.convertOne k t hb

/-! ## Lane faults and the jam wait -/

theorem stopLane (k : Lane) (f : FaultKind) (p : Pos) (h : P s) : P (s.stopLane k f p) :=
  K.convertLane k (K.stackers (K.emit _ h) .stops)

theorem jamRecord (k : Lane) {t : Tag} {r : ItemRecord} (hr : s.record t = some r) (h : P s) : P (s.jamRecord k t r) :=
  K.stopLane k _ _ (K.drainCloses (K.retire .jammed hr h))

theorem jamOverdue (n : Nat) (k : Lane) (h : P s) : P (State.jamOverdue n k s) := by
  induction n generalizing s with
  | zero => exact h
  | succ n ih =>
    simp only [State.jamOverdue]
    split
    · exact h
    · split
      · exact h
      · next hr =>
        split
        · exact h
        · split
          · exact h
          · exact ih (K.jamRecord k hr h)

theorem passJamWait (k : Lane) (h : P s) : P (s.passJamWait k) := K.jamOverdue 24 k h

theorem passJamWaitFrom (k : Lane) (old : Option Tag) (h : P s) : P (s.passJamWaitFrom k old) := by
  unfold State.passJamWaitFrom
  split
  · exact h
  · exact K.passJamWait k h

theorem raiseFault (k : Lane) (f : FaultKind) (p : Pos) (h : P s) : P (s.raiseFault k f p) :=
  K.passJamWaitFrom k _ (K.stopLane k f p h)

theorem toStack (k : Lane) {t : Tag} {r r' : ItemRecord} (hr : s.record t = some r) (hlane : r'.lane = r.lane)
    (htarget : r'.target = r.target) (hsteps : r'.steps.length = r.steps.length) (h : P s) : P (s.toStack k t r') :=
  K.passJamWaitFrom k _ (K.rewrites h hr hlane htarget hsteps)

theorem releaseOutputs (h : P s) : P s.releaseOutputs := K.outs _ h

/-! ## Admission -/

theorem expireHeads (k : Lane) (h : P s) : P (s.expireHeads k) :=
  K.emitLosts k .expired _ (K.queues k h (.inl (List.dropWhile_suffix _).length_le))

theorem refuseEntry (c : LostCause) (kind : EntryKind) (p : List Byte) (h : P s) : P (s.refuseEntry c kind p) := by
  unfold State.refuseEntry
  split <;> exact K.emit _ h

theorem takeEntry (kind : EntryKind) (p : List Byte) (h : P s) : P (s.takeEntry kind p) := by
  simp only [State.takeEntry]
  split
  · exact K.refuseEntry _ _ _ h
  · next k e _ =>
    split
    · exact K.refuseEntry _ _ _ h
    · next hruns =>
      split
      · exact K.refuseEntry _ _ _ h
      · split
        · exact K.refuseEntry _ _ _ h
        · next hroom =>
          refine K.queues k h (.inr ⟨by simpa using hruns, ?_⟩)
          rw [List.length_append, List.length_singleton]
          omega

theorem consumeUntracked (k : Lane) (h : P s) : P (s.consumeUntracked k) := by
  refine K.expireHeads k (K.emitLosts k .untracked _ (K.queues k h (.inl ?_)))
  exact (List.tail_suffix _).length_le.trans (List.dropWhile_suffix _).length_le

theorem drainQueue (k : Lane) (h : P s) : P (s.drainQueue k) :=
  K.emitLosts k .drained _ (K.queues k h (.inl (Nat.zero_le _)))

theorem drainQueues (h : P s) : P s.drainQueues := List.foldlRecOn _ _ h fun _ hb k _ => K.drainQueue k hb

end Kept

/-- The slot that a leading edge takes is free. -/
theorem freeTag_free {t : Tag} (h : s.freeTag = some t) : s.record t = none := by
  simpa using List.find?_some h

/-- R81: what a booking makes of the schedule. -/
theorem bookDiverter_eq (s : State) (k : Lane) (t : Tag) (kind : FireKind) (p : Pos) :
    s.bookDiverter k t kind p = s.setEntries ((s.map.diverters[k]).output.elim s.sched.entries
      fun o => Machine.insertEntry s.position ⟨p, kind, o, t⟩ s.sched.entries) := by
  unfold State.bookDiverter
  cases (s.map.diverters[k]).output <;> rfl

/-- R23, R37: the making of a record, with its count first and the queue after it. -/
theorem makeRecord_eq (s : State) (k : Lane) (p : Pos) (t : Tag) :
    s.makeRecord k p t =
      ((((s.addRecord t (s.boundRecord k p (bindQueue s.queues[k]))).count k .entered).bookBound k t
        (s.boundRecord k p (bindQueue s.queues[k]))).setQueue k (bindQueue s.queues[k]).rest).expireHeads k := by
  simp only [State.makeRecord]
  congr 1
  simp only [State.bookBound, bookDiverter_eq]
  split <;> rfl

namespace Kept
include K

theorem makeRecord (k : Lane) (p : Pos) {t : Tag} (hruns : s.line.runs = true) (ht : s.record t = none) (h : P s) :
    P (s.makeRecord k p t) := by
  rw [makeRecord_eq]
  set b := bindQueue s.queues[k] with hb
  have hentered := K.enters k p b h hruns ht
  have hlive : (((s.addRecord t (s.boundRecord k p b)).count k .entered).record t).isSome := by
    simp [State.addRecord, State.count, State.record]
  have hbooked : P (((s.addRecord t (s.boundRecord k p b)).count k .entered).bookBound k t (s.boundRecord k p b)) := by
    unfold State.bookBound
    split
    · exact K.bookDiverter k _ _ hlive hentered
    · exact hentered
  refine K.expireHeads k (K.queues k hbooked (.inl ?_))
  simpa [hb, bindQueue] using Nat.sub_le_of_le_add ((List.dropWhile_suffix _).length_le.trans (Nat.le_succ _))

theorem leadingEdge (k : Lane) (p : Pos) (hruns : s.line.runs = true) (h : P s) : P (s.leadingEdge k p) := by
  unfold State.leadingEdge
  split
  · next ht => exact K.makeRecord k p hruns (freeTag_free ht) h
  · exact K.raiseFault k _ p (K.consumeUntracked k h)

end Kept

/-! ## Arrivals and the stacker -/

theorem comes_stray (P : State → Prop) : Comes P .stray := .inl rfl

namespace Kept
include K

theorem shelfFault (k : Lane) (f : FaultKind) (p : Pos) (h : P s) : P (s.shelfFault k f p) :=
  K.raiseFault k f p (K.stackers h (.unplaces _))

theorem shelveArrival (k : Lane) {a : Arrival} (p : Pos) (ha : Comes P a) (hphase : (s.stackers[k]).phase ≠ .collecting)
    (h : P s) : P (s.shelveArrival k a p) := by
  simp only [State.shelveArrival]
  split
  · exact K.shelfFault k _ p h
  · next hroom =>
    split
    · exact K.shelfFault k _ p h
    · exact K.stackers h (.shelves a ha hphase (by simpa using hroom))

theorem openStack (k : Lane) {a : Arrival} (ha : Comes P a)
    (hphase : (s.stackers[k]).phase = .collecting ∨ (s.stackers[k]).phase = .stopped) (hstack : (s.stackers[k]).stack = none)
    (h : P s) : P (s.openStack k a) :=
  K.stackers h (.opens a ha hphase hstack)

end Kept

/-- R111: the piece that fills the stack closes it, as it would have closed without it, but for what is reported. -/
theorem closeStack_filled (s : State) (k : Lane) (o : OpenStack) (c : CloseCause) :
    (s.setStacker k { s.stackers[k] with stack := some o }).closeStack k c .offered =
      ((s.emit (.stackDone k (s.stackers[k]).serial o.key o.pieces o.strays o.target o.batchStart c
        (s.stackers[k]).unplaced)).credit o.key o.pieces 1 0).setStacker k ((s.stackers[k]).closed .offered) := by
  set v := s.setStacker k { s.stackers[k] with stack := some o } with hv
  have ho : (v.stackers[k]).stack = some o := by simp [hv]
  rw [closeStack_open ho]
  have hnote := fun n => emit_congr (s := v) (u := s) (by simp [hv]) (by simp [hv]) (by simp [hv]) (by simp [hv]) n
  apply state_ext <;> simp [hv, State.credit, Stacker.closed, upd_upd]
  · simpa [hv] using (hnote _).2
  · simpa [hv] using (hnote _).1

namespace Kept
include K

theorem addCollecting (k : Lane) {o : OpenStack} (a : Arrival) (hruns : s.line.runs = true)
    (hphase : (s.stackers[k]).phase = .collecting) (ho : (s.stackers[k]).stack = some o) (h : P s) :
    P (s.addCollecting k o a) := by
  simp only [State.addCollecting]
  split
  · rw [closeStack_filled]
    refine K.stackers (K.credits _ _ _ _ (K.emit _ h)) ?_
    simpa using StackerMove.closes (by simpa using hruns) (by simpa using Option.isSome_of_mem ho)
  · next hne => exact K.stackers h (.adds a o ho (.inl ⟨hphase, hne⟩))

/-- R111: the close that an arrival with a new key or a separator brings leaves the stacker OFFERED. -/
theorem closeThenShelve (k : Lane) {a : Arrival} (c : CloseCause) (p : Pos) (ha : Comes P a)
    (hruns : s.line.runs = true) {o : OpenStack} (ho : (s.stackers[k]).stack = some o) (h : P s) :
    P ((s.closeStack k c .offered).shelveArrival k a p) := by
  refine K.shelveArrival k p ha ?_ (K.closeStack k c hruns h)
  rw [closeStack_open ho]
  simp [Stacker.closed]

theorem arriveCollecting (k : Lane) {a : Arrival} (p : Pos) (ha : Comes P a) (hruns : s.line.runs = true)
    (hphase : (s.stackers[k]).phase = .collecting) (h : P s) : P (s.arriveCollecting k a p) := by
  unfold State.arriveCollecting
  split
  · next ho => exact K.openStack k ha (.inl hphase) ho h
  · next o ho =>
    split
    · exact K.closeThenShelve k _ p ha hruns ho h
    · split
      · exact K.closeThenShelve k _ p ha hruns ho h
      · exact K.addCollecting k a hruns hphase ho h

theorem arriveStopped (k : Lane) {a : Arrival} (ha : Comes P a) (hphase : (s.stackers[k]).phase = .stopped) (h : P s) :
    P (s.arriveStopped k a) := by
  simp only [State.arriveStopped]
  split
  · next ho => exact K.openStack k ha (.inr hphase) ho h
  · next o ho =>
    split
    · next hroom => exact K.stackers h (.adds a o ho (.inr ⟨hphase, hroom⟩))
    · exact K.stackers h (.unplaces _)

theorem arrive (k : Lane) {a : Arrival} (p : Pos) (ha : Comes P a) (hruns : s.line.runs = true) (h : P s) :
    P (s.arrive k a p) := by
  unfold State.arrive
  split
  · next hp => exact K.arriveCollecting k p ha hruns hp h
  · next hp => exact K.shelveArrival k p ha (by rw [hp]; decide) h
  · next hp => exact K.shelveArrival k p ha (by rw [hp]; decide) h
  · next hp => exact K.shelveArrival k p ha (by rw [hp]; decide) h
  · next hp => exact K.arriveStopped k ha hp h

end Kept

/-- The record that an arrival matches is live. -/
theorem matchFor_live {k : Lane} {p : Pos} {t : Tag} {r : ItemRecord} (h : s.matchFor k p = some (t, r)) :
    s.record t = some r := by
  simp only [State.matchFor] at h
  split at h
  · simp at h
  · split at h
    · simp at h
    · next hr =>
      split at h
      · cases h
        exact hr
      · simp at h

namespace Kept
include K

theorem offerArrival (k : Lane) (p : Pos) (hruns : s.line.runs = true) (h : P s) : P (s.offerArrival k p) := by
  unfold State.offerArrival
  split
  · next t r hm =>
    have hr := matchFor_live hm
    exact K.arrive k p (.inr ⟨s, t, r, h, hr, rfl⟩) (by simpa using hruns) (K.retire .arrived hr h)
  · exact K.arrive k p (comes_stray P) (by simpa using hruns) (K.emit _ h)

theorem arrival (k : Lane) (p : Pos) (hruns : s.line.runs = true) (h : P s) : P (s.arrival k p) :=
  K.drainCloses (K.passJamWait k (K.offerArrival k p (by simpa using hruns) (K.passJamWait k h)))

theorem sackRise (k : Lane) (h : P s) : P (s.sackRise k) := by
  simp only [State.sackRise]
  split
  · exact h
  · next htaken =>
    have hruns : s.line.runs = true := by
      simp only [State.takesHandshake, Bool.not_eq_true', Bool.not_eq_false, Bool.and_eq_true] at htaken
      exact htaken.1
    split
    · next hp => exact K.stackers h (.lowers _ hruns hp)
    · exact K.emit _ h

theorem sclrRise (k : Lane) (h : P s) : P (s.sclrRise k) := by
  simp only [State.sclrRise]
  split
  · exact h
  · split
    · next hp => exact K.drainCloses (K.stackers h (.discharges hp))
    · exact K.emit _ h

theorem dischargeTimeout (k : Lane) (h : P s) : P (s.dischargeTimeout k) := by
  unfold State.dischargeTimeout
  split
  · exact K.raiseFault k _ _ h
  · exact h

/-! ## Stacker commands -/

theorem stackStop (k : Lane) (hruns : s.line.runs = true) (h : P s) : P (s.stackStop k) := by
  unfold State.stackStop
  split
  · exact K.stackers (K.closeStack k _ hruns h) .pauses
  · exact K.stackers h .pauses

theorem stackDo (src : Byte) (k : Lane) (op : StackOp) (v : Byte) (hruns : s.line.runs = true) (h : P s) :
    P (s.stackDo src k op v) := by
  cases op with
  | close =>
    refine K.answer _ _ _ ?_
    unfold State.stackClose
    split
    · exact K.closeStack k _ hruns h
    · exact h
  | stop => exact K.answer _ _ _ (K.stackStop k hruns h)
  | stopAfter => exact K.answer _ _ _ (K.stackers h .pauses)
  | resume =>
    simp only [State.stackDo]
    split
    · next hp => exact K.answer _ _ _ (K.drainCloses (K.stackers h (.resumes hp)))
    · exact K.answer _ _ _ h
  | target => exact K.answer _ _ _ (K.stackers h (.targets v))

theorem stackCmd (src l : Byte) (op : StackOp) (v : Byte) (h : P s) : P (s.stackCmd src l op v) := by
  unfold State.stackCmd
  split
  · exact K.answer _ _ _ h
  · split
    · exact K.answer _ _ _ h
    · next hruns =>
      split
      · exact K.answer _ _ _ h
      · split
        · exact K.answer _ _ _ h
        · exact K.stackDo src _ op v (by simpa using hruns) h

theorem stackCmdTelegram (src : Byte) (p : List Byte) (h : P s) : P (s.stackCmdTelegram src p) := by
  unfold State.stackCmdTelegram
  split
  · split
    · exact K.stackCmd _ _ _ _ h
    · exact K.answer _ _ _ h
  · exact K.answer _ _ _ h

theorem clearStopped (k : Lane) (hruns : s.line.runs = true) (hphase : (s.stackers[k]).phase = .stopped) (h : P s) :
    P (s.clearStopped k) := by
  simp only [State.clearStopped]
  split
  · exact K.closeStack k _ hruns (K.stackers h (.dumps hphase))
  · next ho => exact K.stackers h (.clears hphase (by simpa [Stacker.dumpShelf] using ho))

theorem clearLane (src : Byte) (p : List Byte) (h : P s) : P (s.clearLane src p) := by
  unfold State.clearLane
  split
  · split
    · exact K.answer _ _ _ h
    · split
      · exact K.answer _ _ _ h
      · next hruns =>
        split
        · exact K.answer _ _ _ h
        · split
          · exact K.answer _ _ _ h
          · next hphase => exact K.answer _ _ _ (K.clearStopped _ (by simpa using hruns) (by simpa using hphase) h)
  · exact K.answer _ _ _ h

end Kept

/-! ## The line -/

/-- R34: no queue holds an entry once they are drained. -/
theorem drainQueues_queues (s : State) (k : Lane) : s.drainQueues.queues[k] = [] := by
  have hone : ∀ (u : State) (j i : Lane), (u.drainQueue j).queues[i] = if j = i then [] else u.queues[i] := by
    intro u j i
    simp [State.drainQueue, getElem_upd, Fin.ext_iff]
  simp only [State.drainQueues, allLanes, List.finRange, List.ofFn_succ, List.ofFn_zero, List.foldl_cons, List.foldl_nil, hone]
  fin_cases k <;> simp

/-- R161: the terms of a complete drain. -/
theorem drainDone_iff (s : State) : s.drainDone = true ↔ (∀ t : Tag, s.record t = none) ∧ ∀ k : Lane,
    (s.stackers[k]).phase ≠ .offered ∧ (s.stackers[k]).phase ≠ .lowering
      ∧ ((s.stackers[k]).phase = .collecting → (s.stackers[k]).stack = none) := by
  simp only [State.drainDone, Bool.and_eq_true, tableEmpty_iff, allLanes, List.all_eq_true, List.mem_finRange, true_imp_iff,
    decide_eq_true_eq, Bool.not_eq_true', Bool.and_eq_false_iff, decide_eq_false_iff_not, Option.isSome_eq_false_iff,
    Option.isNone_iff_eq_none, and_assoc]
  refine and_congr_right fun _ => forall_congr' fun k => and_congr_right fun _ => and_congr_right fun _ => ?_
  exact ⟨fun h hp => h.resolve_left (absurd hp), fun h => or_iff_not_imp_left.mpr fun hp => h (not_not.mp hp)⟩

/-- R158: a row of LINE_MODE neither starts nor ends in INIT, and it leaves RUN and DRAIN for neither. -/
theorem modeRow_line {l x : LineState} (h : l.modeRow x = true) :
    l ≠ .init ∧ x ≠ .init ∧ (x.runs = true ∨ l.runs = false) := by
  cases l <;> cases x <;> simp [LineState.modeRow, LineState.runs] at h ⊢

/-- A reply to a command, or none: all that it changes is what is reported, which depends on what was to be sent. -/
structure Reply (reply : State → State) : Prop where
  frame : ∀ v, reply v = { v with link := (reply v).link, loss := (reply v).loss }
  congr : ∀ v w : State, v.link = w.link → v.loss = w.loss → v.node = w.node → v.setup = w.setup →
    (reply v).link = (reply w).link ∧ (reply v).loss = (reply w).loss
  kept : ∀ {P : State → Prop} {C : Telegram → Prop} {v : State}, Kept P C → P v → P (reply v)

theorem reply_answer (src kind : Byte) (code : Code) : Reply (fun v => v.answer src kind code) where
  frame v := by apply state_ext <;> simp
  congr v w hlink hloss hnode _ := by
    simp only [State.answer, State.answerTelegram, nodeByte_congr hnode]
    exact report_congr hlink hloss _
  kept K := K.answer src kind code

theorem reply_none : Reply id where
  frame _ := rfl
  congr _ _ hlink hloss _ _ := ⟨hlink, hloss⟩
  kept _ := id

namespace Kept
include K

theorem completeDrain (h : P s) : P s.completeDrain := by
  unfold State.completeDrain
  split
  · next hd =>
    obtain ⟨hline, hdone⟩ := hd
    obtain ⟨hrecords, hstackers⟩ := (drainDone_iff s).mp hdone
    refine K.emit _ (K.lines (K.drainQueues h) (by simp [hline]) (by simp) (.inr (.inr ⟨?_, ?_, ?_⟩)))
    · exact fun t => (record_congr (by simp) t).trans (hrecords t)
    · exact drainQueues_queues s
    · intro k
      simpa using ⟨(hstackers k).1, (hstackers k).2.1⟩
  · exact h

theorem enterMode {x : LineState} (hrow : s.line.modeRow x = true) (h : P s) : P (s.enterMode x) := by
  obtain ⟨hfrom, hto, hruns⟩ := modeRow_line hrow
  have hline : P (s.setLine x) := K.lines h hfrom hto (hruns.imp id .inl)
  cases x with
  | drain => exact K.drainCloses hline
  | ready => exact K.releaseOutputs hline
  | run => exact hline
  | service => exact hline
  | init => exact hline

theorem moveLine {x : LineState} {reply : State → State} (hreply : Reply reply) (hrow : s.line.modeRow x = true)
    (h : P s) : P (s.moveLine x reply) :=
  K.completeDrain (K.emit _ (hreply.kept K (K.enterMode hrow h)))

theorem lineMode (src : Byte) (x : LineState) (h : P s) : P (s.lineMode src x) := by
  unfold State.lineMode
  split
  · next hrow => exact K.moveLine (reply_answer ..) hrow h
  · exact K.answer _ _ _ h

theorem lineModeAll (x : LineState) (h : P s) : P (State.lineModeAll x s) := by
  unfold State.lineModeAll
  split
  · next hrow => exact K.moveLine reply_none hrow h
  · exact h

theorem lineModePayload (src : Byte) (p : List Byte) (h : P s) : P (s.lineModePayload src p) := by
  unfold State.lineModePayload
  split
  · exact K.lineMode _ _ h
  · exact K.answer _ _ _ h

theorem lineModePayloadAll (p : List Byte) (h : P s) : P (State.lineModePayloadAll p s) := by
  unfold State.lineModePayloadAll
  split
  · exact K.lineModeAll _ h
  · exact h

/-- R164: the notes of a LINE_RESET, its reply and its STATE_NOTE first, then all it clears at once. -/
theorem lineResetWith {reply : State → State} (hreply : Reply reply) (h : P s) : P (s.lineResetWith reply) := by
  obtain ⟨hreset, -, hlink, hloss⟩ := lineResetWith_eq s reply hreply.frame hreply.congr
  set v := reply ((resetNotes s).foldl State.emit s) with hv
  set w := if s.line = resetLine s then v else v.emit (.state s.line (resetLine s) .lineReset s.position) with hw
  have hnoted : P w := by
    have hpv : P v := hreply.kept K (K.emits _ h)
    rw [hw]
    split
    · exact hpv
    · exact K.emit _ hpv
  have hnotes : ∀ l : List Note, ∀ u : State, l.foldl State.emit u =
      { u with link := (l.foldl State.emit u).link, loss := (l.foldl State.emit u).loss } := by
    intro l
    induction l with
    | nil => exact fun _ => rfl
    | cons n l ih =>
      intro u
      rw [List.foldl_cons, ih]
      apply state_ext <;> simp
  have hframe : w = { s with link := w.link, loss := w.loss } := by
    have hvs : v = { s with link := v.link, loss := v.loss } := by
      rw [hv, hreply.frame, hnotes]
    rw [hw]
    split
    · exact hvs
    · rw [hvs]
      apply state_ext <;> simp
  refine K.resets hnoted ?_ hlink hloss
  rw [hframe]
  exact hreset

theorem lineReset (src : Byte) (p : List Byte) (h : P s) : P (s.lineReset src p) := by
  unfold State.lineReset
  split
  · exact K.lineResetWith (reply_answer ..) h
  · exact K.answer _ _ _ h

theorem lineResetAll (p : List Byte) (h : P s) : P (State.lineResetAll p s) := by
  unfold State.lineResetAll
  split
  · exact K.lineResetWith reply_none h
  · exact h

theorem statusRead (src : Byte) (p : List Byte) (h : P s) : P (s.statusRead src p) := by
  unfold State.statusRead
  split
  · split
    · exact K.answer _ _ _ h
    · exact K.report (K.loss false h) (.inl (by simp [State.answerTelegram, State.statusBody, LaneCounters.bytes]))
  · exact K.answer _ _ _ h

end Kept

/-! ## Fires -/

/-- R45, R73: a fire leaves the lane, the target and the number of steps of its record. -/
theorem fireStep_length (m : StationMap) (r : ItemRecord) (j : StepNo) (x : FoldStep) :
    (r.fireStep m j x).steps.length = r.steps.length := List.length_set

namespace Kept
include K

theorem dropEntry (e : FireEntry) (h : P s) : P (s.dropEntry e) := K.unbooks h List.erase_subset

theorem fireRecord (t : Tag) (j : StepNo) (h : P s) : P (s.fireRecord t j) := by
  simp only [State.fireRecord]
  split
  · exact h
  · next r hr =>
    split
    · exact h
    · next x _ =>
      split
      · unfold State.stepFired
        split
        · exact K.rewrites h hr rfl rfl (fireStep_length ..)
        · exact K.toStack _ hr rfl rfl (fireStep_length ..) h
      · exact h

theorem fireFold (e : FireEntry) (j : StepNo) (h : P s) : P (s.fireFold e j) :=
  K.fireRecord _ _ (K.busies _ (K.outs _ (K.dropEntry e h)))

theorem fireOpen (e : FireEntry) (h : P s) : P (s.fireOpen e) := K.outs _ (K.dropEntry e h)

theorem rejectRecord {t : Tag} {r : ItemRecord} (hr : s.record t = some r) (h : P s) : P (s.rejectRecord t r) :=
  K.emit _ (K.credits _ _ _ _ (K.drainCloses (K.retire .rejected hr h)))

theorem fireClose (e : FireEntry) (h : P s) : P (s.fireClose e) := by
  have hclosed : P (if (s.dropEntry e).opensLater e.tag then s.dropEntry e
      else (s.dropEntry e).setOut e.out ((s.dropEntry e).outs[e.out]).closeOne) :=
    ite_keeps (P := P) (K.dropEntry e h) (K.outs _ (K.dropEntry e h))
  simp only [State.fireClose]
  split
  · exact hclosed
  · next hr => exact K.rejectRecord hr hclosed

theorem fire (e : FireEntry) (h : P s) : P (s.fire e) := by
  unfold State.fire
  split
  · exact K.fireFold e _ h
  · exact K.fireOpen e h
  · exact K.fireClose e h

theorem fireDue (t : Tag) (kind : FireKind) (h : P s) : P (s.fireDue t kind) := by
  unfold State.fireDue
  split
  · exact h
  · exact K.fire _ h

theorem busyReached (o : OutId) (h : P s) : P (s.busyReached o) := by
  unfold State.busyReached
  split
  · exact K.busies _ h
  · exact h

/-! ## Outputs -/

theorem expireShot (o : OutId) (h : P s) : P (s.expireShot o) := by
  unfold State.expireShot
  split
  · exact K.outs _ h
  · exact h

theorem forceOutput (src b : Byte) (op : ForceOp) (h : P s) : P (s.forceOutput src b op) := by
  unfold State.forceOutput
  split
  · exact K.answer _ _ _ h
  · split
    · exact K.answer _ _ _ h
    · split
      · exact K.answer _ _ _ h
      · split
        · exact K.answer _ _ _ h
        · exact K.answer _ _ _ (K.outs _ h)

theorem forceOutputTelegram (src : Byte) (p : List Byte) (h : P s) : P (s.forceOutputTelegram src p) := by
  unfold State.forceOutputTelegram
  split
  · split
    · exact K.forceOutput _ _ _ h
    · exact K.answer _ _ _ h
  · exact K.answer _ _ _ h

end Kept

/-! ## Folds -/

/-- R61: the computation leaves as many steps as it was given. -/
theorem computeSteps_fst_length (m : StationMap) (lead : Pos) (steps : List FoldStep) :
    ∀ (len : Nat) (prev : Option (Pos × Nat)), (computeSteps m lead len prev steps).1.length = steps.length := by
  induction steps with
  | nil => exact fun _ _ => rfl
  | cons st rest ih =>
    intro len prev
    simp only [computeSteps]
    split
    · rfl
    · simp [ih]

/-- R69: every FOLD entry of a request is the record's own. -/
theorem foldEntries_tag {m : StationMap} {k : Lane} {t : Tag} {l : List (FoldStep × StepNo)} {es : List FireEntry}
    (h : foldEntries m k t l = some es) : ∀ e ∈ es, e.tag = t := by
  induction l generalizing es with
  | nil =>
    cases h
    simp
  | cons x l ih =>
    simp only [foldEntries] at h
    split at h
    · next hrest =>
      cases h
      simpa using ih hrest
    · simp at h

/-- R87: a request that is taken is inserted whole. -/
theorem requestFolds_some {es : List FireEntry} {u : State} (h : s.requestFolds es = some u) :
    u = es.foldl State.insertEntry s := by
  unfold State.requestFolds at h
  split at h
  · exact (Option.some.inj h).symm
  · simp at h

namespace Kept
include K

theorem insertEntries {t : Tag} (es : List FireEntry) (hes : ∀ e ∈ es, e.tag = t) (ht : (s.record t).isSome) (h : P s) :
    P (es.foldl State.insertEntry s) := by
  induction es generalizing s with
  | nil => exact h
  | cons e es ih =>
    refine ih (fun x hx => hes x (List.mem_cons_of_mem _ hx)) ?_ (K.books h ?_)
    · exact ht
    · rwa [hes e List.mem_cons_self]

theorem divertRecord (k : Lane) {t : Tag} {r r' : ItemRecord} (p : Pos) (hr : s.record t = some r)
    (hlane : r'.lane = r.lane) (htarget : r'.target = r.target) (hsteps : r'.steps.length = r.steps.length) (h : P s) :
    P (s.divertRecord k t r' p) := by
  have hset := K.rewrites (r' := { r' with state := .diverting }) h hr hlane htarget hsteps
  refine K.bookDiverter k _ _ ?_ (K.bookDiverter k _ _ ?_ hset)
  · rw [record_bookDiverter, record_setRecord_self]
    rfl
  · rw [record_setRecord_self]
    rfl

theorem rejectFold (k : Lane) {t : Tag} {r r' : ItemRecord} (p : Pos) {steps : List FoldStep} (reason : Reason)
    (hr : s.record t = some r) (hlane : r'.lane = r.lane) (htarget : r'.target = r.target)
    (hsteps : steps.length = r.steps.length) (h : P s) : P (s.rejectFold k t r' p steps reason) :=
  K.divertRecord k p hr hlane htarget ((cancelEvery_length _).trans hsteps) h

theorem foldRecord (k : Lane) {t : Tag} {r r' : ItemRecord} (n : Nat) (p : Pos) (hr : s.record t = some r)
    (hlane : r'.lane = r.lane) (htarget : r'.target = r.target) (hsteps : r'.steps.length = r.steps.length) (h : P s) :
    P (s.foldRecord k t r' n p) := by
  have hlength : (computeSteps s.map r'.lead n none r'.steps).1.length = r.steps.length :=
    (computeSteps_fst_length ..).trans hsteps
  simp only [State.foldRecord]
  split
  · exact K.rejectFold k p _ hr hlane htarget hlength h
  · split
    · exact K.rejectFold k p _ hr hlane htarget hlength h
    · split
      · exact K.rejectFold k p _ hr hlane htarget hlength h
      · next u hu =>
        obtain ⟨es, hes, hreq⟩ := Option.bind_eq_some_iff.mp hu
        have hlive : (s.record t).isSome := by rw [hr]; rfl
        rw [requestFolds_some hreq]
        refine K.rewrites (K.insertEntries es (foldEntries_tag hes) hlive h) ?_ hlane htarget hlength
        rw [record_congr (u := s) (by simp) t, hr]

/-! ## Confirmations, overlength waits and jams -/

theorem divertConfirmed (k : Lane) {t : Tag} {r r' : ItemRecord} (p : Pos) (hr : s.record t = some r)
    (hlane : r'.lane = r.lane) (htarget : r'.target = r.target) (hsteps : r'.steps.length = r.steps.length) (h : P s) :
    P (s.divertConfirmed k t r' p) := by
  refine K.bookDiverter k _ _ ?_ (K.rewrites (r' := { r' with state := .diverting }) h hr hlane htarget hsteps)
  rw [record_setRecord_self]
  rfl

theorem settleConfirmed (k : Lane) {t : Tag} {r r' : ItemRecord} (n : Nat) (p : Pos) (hr : s.record t = some r)
    (hlane : r'.lane = r.lane) (htarget : r'.target = r.target) (hsteps : r'.steps.length = r.steps.length) (h : P s) :
    P (s.settleConfirmed k t r' n p) := by
  have hlive : (s.record t).isSome := by rw [hr]; rfl
  have hcancelled : (cancelEvery r'.steps).length = r.steps.length := (cancelEvery_length _).trans hsteps
  unfold State.settleConfirmed
  split
  · exact K.divertConfirmed k p hr hlane htarget hsteps h
  · split
    · exact K.divertConfirmed k p ((record_bookDiverter ..).trans hr) hlane htarget hsteps (K.bookDiverter k _ _ hlive h)
    · split
      · exact K.divertRecord k p hr hlane htarget hcancelled h
      · split
        · exact K.divertRecord k p hr hlane htarget hcancelled h
        · split
          · exact K.toStack k hr hlane htarget hsteps h
          · exact K.foldRecord k n p hr hlane htarget hsteps h

theorem trailingEdge (k : Lane) (p : Pos) (h : P s) : P (s.trailingEdge k p) := by
  unfold State.trailingEdge
  split
  · exact h
  · split
    · exact h
    · next hr => exact K.settleConfirmed k _ p hr rfl rfl rfl h

theorem overlength (t : Tag) (h : P s) : P (s.overlength t) := by
  unfold State.overlength
  split
  · exact h
  · next r hr =>
    split
    · simp only [State.meetOverlength]
      split
      · refine K.bookDiverter _ _ _ ?_ (K.rewrites (r' := { r with overWait := none, reason := some .oversize })
          h hr rfl rfl rfl)
        rw [record_setRecord_self]
        rfl
      · exact K.rewrites h hr rfl rfl rfl
    · exact h

theorem jam (k : Lane) (h : P s) : P (s.jam k) := by
  unfold State.jam
  split
  · exact K.passJamWait k h
  · exact h

theorem itemRead (src : Byte) (p : List Byte) (h : P s) : P (s.itemRead src p) := by
  unfold State.itemRead
  split
  · split
    · exact K.report h (.inr ⟨_, _, rfl⟩)
    · exact K.answer _ _ _ h
  · exact K.answer _ _ _ h

/-! ## Sensors -/

theorem leadingEvent (x : Sensor) (h : P s) : P (s.leadingEvent x) := by
  cases x with
  | ls k =>
    simp only [State.leadingEvent, State.routeLeading]
    split
    · next hr => exact K.leadingEdge k _ (Bool.and_eq_true _ _ ▸ hr).1 h
    · split
      · exact K.emit _ h
      · exact h
  | es k =>
    simp only [State.leadingEvent, State.routeArrival]
    split
    · next hr => exact K.arrival k _ (Bool.and_eq_true _ _ ▸ hr).1 h
    · exact h

theorem trailingEvent (x : Sensor) (mark : Pos) (h : P s) : P (s.trailingEvent x mark) := by
  cases x with
  | ls k =>
    simp only [State.trailingEvent, State.routeTrailing]
    split
    · exact K.trailingEdge k _ h
    · exact h
  | es k => exact h

theorem confirmReached (x : Sensor) (h : P s) : P (s.confirmReached x) := by
  unfold State.confirmReached
  split
  · exact h
  · exact h
  · next hq =>
    split
    · exact K.trailingEvent x _ (K.confirms x h (by simp [hq]) (by simp))
    · exact h

end Kept

/-- A qualifier that keeps its value as its input moves. -/
theorem setQual_same (s : State) (x : Sensor) (b : Bool) : (s.setPin x b).setQual x (s.qual x) = s.setPin x b := by
  cases x <;> simp [State.qual] <;> rfl

@[simp] theorem qual_setPin (s : State) (x : Sensor) (b : Bool) : (s.setPin x b).qual x = s.qual x := by
  cases x <;> rfl

/-- R44: a wait that stands at the present position is met. -/
theorem overlength_met {t : Tag} {r : ItemRecord} (hr : s.record t = some r) (hw : r.overWait = some s.position) :
    s.overlength t = s.meetOverlength t r := by
  simp only [State.overlength, hr, hw, if_true]

/-- R44: a piece that covers its sensor and has no reason takes OVERSIZE and its DIVERT_OPEN. -/
theorem meetOverlength_covered {t : Tag} {r : ItemRecord} (h : s.unit.lsQual[r.lane] = .covered ∧ r.reason.isNone) :
    s.meetOverlength t r = (s.setRecord t { r with overWait := none, reason := some .oversize }).bookDiverter r.lane t
      .divertOpen (s.openAt r.lane r.lead) := if_pos h

/-- R44: another piece only loses its wait. -/
theorem meetOverlength_else {t : Tag} {r : ItemRecord} (h : ¬(s.unit.lsQual[r.lane] = .covered ∧ r.reason.isNone)) :
    s.meetOverlength t r = s.setRecord t { r with overWait := none } := if_neg h

/-- R44: whether an overlength wait is met does not depend on the levels of the inputs. -/
theorem overlength_setPins (s : State) (x : Pins) (t : Tag) : (s.setPins x).overlength t = (s.overlength t).setPins x := by
  cases hr : s.record t with
  | none =>
    have hnone : ∀ u : State, u.record t = none → u.overlength t = u := fun u hu => overlength_none (by simp [hu])
    rw [hnone s hr, hnone (s.setPins x) hr]
  | some r =>
    have hr' : (s.setPins x).record t = some r := hr
    by_cases hw : r.overWait = some s.position
    · rw [overlength_met hr hw, overlength_met hr' hw]
      by_cases hc : s.unit.lsQual[r.lane] = .covered ∧ r.reason.isNone
      · rw [meetOverlength_covered hc, meetOverlength_covered (s := s.setPins x) hc, bookDiverter_eq, bookDiverter_eq]
        rfl
      · rw [meetOverlength_else hc, meetOverlength_else (s := s.setPins x) hc]
        rfl
    · have hkeeps : ∀ u : State, u.record t = some r → r.overWait ≠ some u.position → u.overlength t = u :=
        fun u hu hne => overlength_none (by simpa [hu] using hne)
      rw [hkeeps s hr hw, hkeeps (s.setPins x) hr' hw]

/-- R44: the overlength wait that an uncover finds due is met before it, at either level of the input. -/
theorem meetLaneOverlength_setPin (s : State) (x : Sensor) (b : Bool) :
    (s.setPin x b).meetLaneOverlength x = (s.meetLaneOverlength x).setPin x b := by
  cases x with
  | ls k =>
    have hoverlength := fun t => overlength_setPins s { s.pins with ls := upd s.pins.ls k b } t
    have holdest : (s.setPin (.ls k) b).oldest k .entering = s.oldest k .entering := rfl
    simp only [State.meetLaneOverlength, holdest]
    split
    · next t _ =>
      rw [setPin_ls, setPin_ls, hoverlength, (overlength_frame s t).2.1]
    · rfl
  | es k => rfl

namespace Kept
include K

theorem execCover (x : Sensor) (h : P s) : ∃ u, exec (.cover x) s = .next u ∧ P u := by
  refine ⟨_, rfl, ite_keeps h ?_⟩
  split
  · unfold State.coverQual
    split
    · exact K.leadingEvent x (K.covers x h)
    · next hq =>
      rw [← setQual_same, show s.qual x = .covered from (qual_setPin s x true).symm.trans hq]
      exact K.covers x h
    · exact K.covers x h
  · next hlow => exact K.levels x true h (by simpa using hlow)

theorem execUncover (x : Sensor) (h : P s) : ∃ u, exec (.uncover x) s = .next u ∧ P u := by
  refine ⟨_, rfl, ite_keeps h ?_⟩
  split
  · rw [meetLaneOverlength_setPin]
    set v := s.meetLaneOverlength x with hv
    have hmet : P v := by
      rw [hv]
      cases x with
      | ls k =>
        simp only [State.meetLaneOverlength]
        split
        · exact K.overlength _ h
        · exact h
      | es k => exact h
    unfold State.uncoverQual
    split
    · next hq =>
      rw [← setQual_same, show v.qual x = .clear from (qual_setPin v x false).symm.trans hq]
      exact K.uncovers x hmet (by simp)
    · exact K.uncovers x hmet (by simp)
    · next hq =>
      rw [← setQual_same, (qual_setPin v x false).symm.trans hq]
      exact K.uncovers x hmet (by simp)
  · next hlow => exact K.levels x false h (by simpa using hlow)

/-! ## The belt and the time base -/

theorem settle (h : P s) : P s.settle := by
  have hqualifiers : P s.settleQualifiers := List.foldlRecOn _ _ h fun _ hb x _ => K.confirmReached x hb
  have hoverlength : P s.settleQualifiers.settleOverlength :=
    List.foldlRecOn _ _ hqualifiers fun _ hb t _ => K.overlength t hb
  have hfires : P s.settleQualifiers.settleOverlength.settleFires :=
    List.foldlRecOn _ _ hoverlength fun _ hb e _ => ite_keeps (K.fire e hb) hb
  have hjams := List.foldlRecOn (motive := P) allLanes State.jam hfires fun _ hb k _ => K.jam k hb
  have hbusy := List.foldlRecOn (motive := P) allOuts State.busyReached hjams fun _ hb o _ => K.busyReached o hb
  have hexpiries := List.foldlRecOn (motive := P) allLanes State.expireHeads hbusy fun _ hb k _ => K.expireHeads k hb
  have hshots := List.foldlRecOn (motive := P) allOuts State.expireShot hexpiries fun _ hb o _ => K.expireShot o hb
  exact K.completeDrain
    (List.foldlRecOn allLanes State.dischargeTimeout hshots fun _ hb k _ => K.dischargeTimeout k hb)

theorem idle (h : P s) : P s.idle := ite_keeps (K.ticks (K.settle h)) h

/-! ## The tally -/

theorem tallyFreeze (src : Byte) (p : List Byte) (h : P s) : P (s.tallyFreeze src p) := by
  unfold State.tallyFreeze
  split
  · split
    · have hbody : ∀ (t : Tally) (b : Bool), (t.freezeBody b).length = 7 := fun t b => by simp [Tally.freezeBody]
      simp only [State.freezeTally]
      split
      · exact K.report (K.freezes _ h) (.inl (by simp [State.answerTelegram, hbody]))
      · exact K.report h (.inl (by simp [State.answerTelegram, hbody]))
    · exact K.answer _ _ _ h
  · exact K.answer _ _ _ h

end Kept

/-- R177: the rows of an answer to TALLY_READ take at most 33 bytes. -/
theorem readBody_length (t : Tally) : t.readBody.length ≤ 37 := by
  have hrow : ∀ r : SnapRow, r.bytes.length = 11 := fun r => by cases h : r.key <;> simp [SnapRow.bytes, h]
  have hrows : ((t.snapRows.take 3).flatMap SnapRow.bytes).length = (t.snapRows.take 3).length * 11 := by
    simp [List.length_flatMap, hrow]
  simp only [Tally.readBody, List.length_append, hrows, List.length_take, List.length_singleton, optPosBytes_length]
  omega

namespace Kept
include K

theorem tallyRead (src : Byte) (p : List Byte) (h : P s) : P (s.tallyRead src p) := by
  unfold State.tallyRead
  split
  · refine K.report (ite_keeps (K.readsOut h) h) (.inl ?_)
    have := readBody_length s.tally
    simp only [State.answerTelegram, List.mem_singleton, forall_eq, List.length_append, List.length_cons, List.length_nil]
    omega
  · exact K.answer _ _ _ h

end Kept

/-! ## The staging copy and the commit -/

/-- R147: a staged diverter entry has a shelf capacity of at most 3. -/
theorem diverterOf_cap {out : Byte} {dist : Nat} {openLead closeTrail cap timeout : Byte} {d : Diverter}
    (h : diverterOf out dist openLead closeTrail cap timeout = some d) : d.cap ≤ 3 := by
  unfold diverterOf at h
  split at h
  · simp at h
  · split at h
    · next hok =>
      cases h
      exact of_decide_eq_true (Bool.and_eq_true _ _ ▸ hok).2
    · simp at h

/-- An answer is the same at any line state. -/
theorem answer_setLine (s : State) (src kind : Byte) (code : Code) (x : LineState) :
    (s.answer src kind code).setLine x = (s.setLine x).answer src kind code :=
  apply_ite (fun u : State => u.setLine x) ..

/-- R148, R149: an accepted commit, with the move to READY first. -/
theorem commit_changeLine (s : State) (src : Byte) :
    ((s.commit).answer src kindCommitMap .accepted).changeLine .ready .commit =
      ((s.commit.setLine .ready).answer src kindCommitMap .accepted).emit
        (.state s.line .ready .commit s.position) := by
  have hline : ((s.commit).answer src kindCommitMap .accepted).line = s.line := by simp [State.commit]
  have hposition : ((s.commit).answer src kindCommitMap .accepted).position = s.position := by
    simp [State.position, State.commit]
  rw [State.changeLine, answer_setLine, hline, hposition]

namespace Kept
include K

theorem stage (src kind : Byte) {m : Option (StationMap × Code)}
    (hm : ∀ x ∈ m, ∀ k : Lane, x.1.diverters[k] = s.setup.staging.diverters[k] ∨ (x.1.diverters[k]).cap ≤ 3) (h : P s) :
    P (s.stage src kind m) := by
  unfold State.stage
  split
  · exact K.answer _ _ _ h
  · next hline =>
    split
    · exact K.answer _ _ _ h
    · exact K.answer _ _ _ (K.stages h (not_not.mp hline) (hm _ rfl))

theorem setupGlobals (src : Byte) (p : List Byte) (h : P s) : P (s.setupGlobals src p) := by
  simp only [State.setupGlobals]
  split
  · refine K.stage src _ (fun x hx k => .inl ?_) h
    split at hx
    · cases hx
      rfl
    · simp at hx
  · exact K.answer _ _ _ h

theorem setupStation (src : Byte) (p : List Byte) (h : P s) : P (s.setupStation src p) := by
  simp only [State.setupStation]
  split
  · split
    · exact K.answer _ _ _ h
    · refine K.stage src _ (fun x hx k => .inl ?_) h
      obtain ⟨y, -, rfl⟩ := Option.map_eq_some_iff.mp hx
      rfl
  · exact K.answer _ _ _ h

theorem setupOutput (src : Byte) (p : List Byte) (h : P s) : P (s.setupOutput src p) := by
  simp only [State.setupOutput]
  split
  · split
    · exact K.answer _ _ _ h
    · refine K.stage src _ (fun x hx k => .inl ?_) h
      obtain ⟨y, -, rfl⟩ := Option.map_eq_some_iff.mp hx
      rfl
  · exact K.answer _ _ _ h

theorem setupDiverter (src : Byte) (p : List Byte) (h : P s) : P (s.setupDiverter src p) := by
  simp only [State.setupDiverter]
  split
  · split
    · exact K.answer _ _ _ h
    · next j _ =>
      refine K.stage src _ (fun x hx k => ?_) h
      obtain ⟨d, hd, rfl⟩ := Option.map_eq_some_iff.mp hx
      by_cases hk : j = k
      · subst hk
        exact .inr (by simpa using diverterOf_cap hd)
      · exact .inl (getElem_upd_ne _ _ hk)
  · exact K.answer _ _ _ h

theorem commitMap (src : Byte) (p : List Byte) (h : P s) : P (s.commitMap src p) := by
  unfold State.commitMap
  split
  · split
    · exact K.answer _ _ _ h
    · next hline =>
      split
      · exact K.report h (.inl (by simp [State.answerTelegram]))
      · rw [commit_changeLine]
        exact K.emit _ (K.answer _ _ _ (K.commits h (not_not.mp hline)))
  · exact K.answer _ _ _ h

end Kept

/-! ## Loads to the working tables -/

/-- A table with one entry written where the entry's lock is clear. -/
theorem upd_written {α : Type} {n : Nat} {v : Vector α n} {i : Fin n} {x : α} {locks : Vector Bool n} {Q : α → Prop}
    (hlock : locks[i] = false) (hx : Q x) (j : Fin n) : (upd v i x)[j] = v[j] ∨ (locks[j] = false ∧ Q (upd v i x)[j]) := by
  by_cases hij : i = j
  · subst hij
    exact .inr ⟨hlock, by simpa using hx⟩
  · exact .inl (getElem_upd_ne _ _ hij)

/-- A lock mark that is set stays set as another is set. -/
theorem upd_true {n : Nat} {locks : Vector Bool n} {i j : Fin n} (h : locks[j] = true) : (upd locks i true)[j] = true := by
  by_cases hij : i = j
  · subst hij
    simp
  · rw [Fin.getElem_fin, getElem_upd_ne _ _ hij]
    exact h

/-- R151: a row that passes its checks has a target within range. -/
theorem articleRow_target {x : Setup} {route plan : Byte} {min max : Nat} {target : Byte} {row : ArticleRow × Code}
    (h : x.articleRow route plan min max target = some row) : targetFits row.1.target := by
  unfold Setup.articleRow at h
  split at h
  · iterate 3 split at h; · simp at h
    split at h
    · cases h
      exact ⟨le_rfl, by norm_num⟩
    · next htarget =>
      cases h
      exact ⟨by simpa using htarget, Nat.le_of_lt_succ target.isLt⟩
  · simp at h

theorem loaded_article {x y : Setup} {c : Code} {a : Article} {valid route plan : Byte} {min max : Nat} {target : Byte}
    (hlock : x.articleLocks[a] = false) (h : x.withArticle a valid route plan min max target = some (y, c)) :
    Loaded x y := by
  have hwrite : ∀ entry : Option ArticleRow, (∀ row ∈ entry, targetFits row.target) →
      Loaded x { x with articles := upd x.articles a entry } := fun entry hentry =>
    { staging := rfl, committed := rfl, lanes := .inl rfl
      articles := upd_written (Q := fun e : Option ArticleRow => ∀ row ∈ e, targetFits row.target) hlock hentry
      plans := fun _ => .inl rfl
      articleLocks := fun _ => id, planLocks := fun _ => id }
  unfold Setup.withArticle at h
  split at h
  · simp at h
  · cases h
    exact hwrite none (by simp)
  · obtain ⟨row, hrow, he⟩ := Option.map_eq_some_iff.mp h
    cases he
    exact hwrite (some row.1) (by simpa using articleRow_target hrow)

theorem loaded_plan {n : PlanNo} {p : List Byte} {y : Setup} {c : Code} (hlock : s.setup.planLocks[n] = false)
    (h : s.withPlan n p = some (y, c)) : Loaded s.setup y := by
  unfold State.withPlan at h
  split at h
  · simp at h
  · split at h
    · next steps _ hok =>
      cases h
      have hlength : steps.length ≤ 4 := by
        simp only [State.planOk, Bool.and_eq_true, decide_eq_true_eq] at hok
        omega
      exact
        { staging := rfl, committed := rfl, lanes := .inl rfl, articles := fun _ => .inl rfl
          plans := upd_written (Q := fun e : Option (List PlanStep) => ∀ steps ∈ e, steps.length ≤ 4) hlock (by simpa using hlength)
          articleLocks := fun _ => id, planLocks := fun _ => id }
    · simp at h

theorem loaded_customer {x y : Setup} {c : Code} {i : CustomerIndex} {valid : Byte} {base mask : CustomerId} {group : Byte}
    (h : x.withCustomer i valid base mask group = some (y, c)) : Loaded x y := by
  have hwrite : ∀ entry : Option CustomerEntry, Loaded x { x with customers := upd x.customers i entry } := fun entry =>
    { staging := rfl, committed := rfl, lanes := .inl rfl, articles := fun _ => .inl rfl, plans := fun _ => .inl rfl
      articleLocks := fun _ => id, planLocks := fun _ => id }
  unfold Setup.withCustomer at h
  split at h
  · simp at h
  · cases h
    exact hwrite none
  · split at h
    · simp at h
    · split at h
      · simp at h
      · cases h
        exact hwrite _

theorem loaded_lanes (x : Setup) (l : LanePlan) : Loaded x { x with lanes := some l } :=
  { staging := rfl, committed := rfl, lanes := .inr rfl, articles := fun _ => .inl rfl, plans := fun _ => .inl rfl
    articleLocks := fun _ => id, planLocks := fun _ => id }

theorem loaded_lock {x y : Setup} {table index : Byte} (h : x.lock table index = some y) : Loaded x y := by
  unfold Setup.lock at h
  split at h
  · obtain ⟨a, -, rfl⟩ := Option.map_eq_some_iff.mp h
    exact
      { staging := rfl, committed := rfl, lanes := .inl rfl, articles := fun _ => .inl rfl, plans := fun _ => .inl rfl
        articleLocks := fun _ => upd_true, planLocks := fun _ => id }
  · split at h
    · obtain ⟨n, -, rfl⟩ := Option.map_eq_some_iff.mp h
      exact
        { staging := rfl, committed := rfl, lanes := .inl rfl, articles := fun _ => .inl rfl, plans := fun _ => .inl rfl
          articleLocks := fun _ => id, planLocks := fun _ => upd_true }
    · simp at h

theorem takesTables_init {l : LineState} (h : l.takesTables = true) : l ≠ .init := by
  rintro rfl
  simp [LineState.takesTables] at h

theorem takesCustomers_init {l : LineState} (h : l.takesCustomers = true) : l ≠ .init := by
  rintro rfl
  simp [LineState.takesCustomers] at h

namespace Kept
include K

theorem load (src kind : Byte) {accepts locked : Bool} {x : Option (Setup × Code)} (haccepts : accepts = true → s.line ≠ .init)
    (hx : locked = false → ∀ y ∈ x, Loaded s.setup y.1) (h : P s) : P (s.load src kind accepts locked x) := by
  unfold State.load
  split
  · exact K.answer _ _ _ h
  · next ha =>
    split
    · exact K.answer _ _ _ h
    · next hlock =>
      split
      · exact K.answer _ _ _ h
      · exact K.answer _ _ _ (K.loads h (haccepts (by simpa using ha)) (hx (by simpa using hlock) _ rfl))

theorem loadArticle (src : Byte) (p : List Byte) (h : P s) : P (s.loadArticle src p) := by
  unfold State.loadArticle
  split
  · split
    · exact K.answer _ _ _ h
    · exact K.load _ _ takesTables_init (fun hlock y hy => loaded_article hlock hy) h
  · exact K.answer _ _ _ h

theorem loadPlan (src : Byte) (p : List Byte) (h : P s) : P (s.loadPlan src p) := by
  unfold State.loadPlan
  split
  · split
    · exact K.answer _ _ _ h
    · split
      · exact K.answer _ _ _ h
      · exact K.load _ _ takesTables_init (fun hlock y hy => loaded_plan hlock hy) h
  · exact K.answer _ _ _ h

theorem loadCustomer (src : Byte) (p : List Byte) (h : P s) : P (s.loadCustomer src p) := by
  unfold State.loadCustomer
  split
  · split
    · exact K.answer _ _ _ h
    · exact K.load _ _ takesCustomers_init (fun _ y hy => loaded_customer hy) h
  · exact K.answer _ _ _ h

theorem loadLanes (src : Byte) (p : List Byte) (h : P s) : P (s.loadLanes src p) := by
  unfold State.loadLanes
  split
  · refine K.load _ _ (fun hready => by simp [of_decide_eq_true hready]) (fun _ y hy => ?_) h
    obtain ⟨l, -, rfl⟩ := Option.map_eq_some_iff.mp hy
    exact loaded_lanes _ l
  · exact K.answer _ _ _ h

theorem lockEntry (src : Byte) (p : List Byte) (h : P s) : P (s.lockEntry src p) := by
  unfold State.lockEntry
  split
  · split
    · exact K.answer _ _ _ h
    · next hlock =>
      refine K.load _ _ of_decide_eq_true (fun _ y hy => ?_) h
      cases hy
      exact loaded_lock hlock
  · exact K.answer _ _ _ h

/-! ## Telegrams -/

theorem act (t : Telegram) (h : P s) : P (s.act t) := by
  simp only [State.act]
  refine ite_keeps (K.takeEntry _ _ h) ?_
  refine ite_keeps (K.takeEntry _ _ h) ?_
  refine ite_keeps (K.setupGlobals _ _ h) ?_
  refine ite_keeps (K.setupStation _ _ h) ?_
  refine ite_keeps (K.setupOutput _ _ h) ?_
  refine ite_keeps (K.setupDiverter _ _ h) ?_
  refine ite_keeps (K.commitMap _ _ h) ?_
  refine ite_keeps (K.loadArticle _ _ h) ?_
  refine ite_keeps (K.loadPlan _ _ h) ?_
  refine ite_keeps (K.loadCustomer _ _ h) ?_
  refine ite_keeps (K.loadLanes _ _ h) ?_
  refine ite_keeps (K.lockEntry _ _ h) ?_
  refine ite_keeps (K.lineModePayload _ _ h) ?_
  refine ite_keeps (K.lineReset _ _ h) ?_
  refine ite_keeps (K.stackCmdTelegram _ _ h) ?_
  refine ite_keeps (K.clearLane _ _ h) ?_
  refine ite_keeps (K.forceOutputTelegram _ _ h) ?_
  refine ite_keeps (K.tallyFreeze _ _ h) ?_
  refine ite_keeps (K.tallyRead _ _ h) ?_
  refine ite_keeps (K.statusRead _ _ h) ?_
  refine ite_keeps (K.itemRead _ _ h) ?_
  exact K.answer _ _ _ h

theorem broadcast {t : Telegram} {f : State → State} (hc : C t) (hf : ∀ v, P v → P (f v)) (h : P s) : P (s.broadcast t f) := by
  rcases broadcast_cases s t f with e | e
  · rw [e]
    exact hf _ (K.forward hc (K.draws _ h))
  · rw [e]
    exact K.forward hc (hf _ (K.draws _ h))

theorem actAll (t : Telegram) (h : P s) : P (State.actAll t s) := by
  unfold State.actAll
  split
  · exact K.lineResetAll _ h
  · exact K.lineModePayloadAll _ h

theorem dispose {t : Telegram} (hc : C t) (h : P s) : P (s.dispose t) := by
  unfold State.dispose
  split
  · exact h
  · split
    · exact K.act t h
    · split
      · exact K.broadcast hc (fun _ => K.actAll t) h
      · exact K.forward hc h

end Kept

/-! ## Every command -/

/-- The telegrams that a command brings in to be forwarded: the one that the receiver has completed, and a broadcast. -/
def Brings (s : State) (c : Instr) (t : Telegram) : Prop :=
  (∃ bytes check, s.link.receiver = .body bytes ∧ completed bytes = some (t, check))
    ∨ (∃ src target, t = lineModeTelegram src target)
    ∨ ∃ src p, c = .lineReset src true p ∧ t = ⟨31, src, kindLineReset, p⟩

/-- `P` is kept by the changes of the receiver and of the reset pin too. A byte is heard by a receiver that holds no
complete telegram (R171). -/
structure KeptByAll (P : State → Prop) (C : Telegram → Prop) : Prop extends Kept P C where
  hunts : ∀ {s : State}, P s → P (s.setLink { s.link with receiver := .hunt false }) := by intros; assumption
  hears : ∀ {s : State} (b : Byte) (ok : Bool), P s → (∀ bytes, s.link.receiver = .body bytes → completed bytes = none) →
    P (s.setLink (s.link.receive b ok)) := by intros; assumption
  falls : ∀ {s : State}, P s → P ((s.setPins { s.pins with rst := false }).setLink s.link.cut) := by intros; assumption

/-- R173: a start of the transmitter moves the transmitter alone. -/
theorem start_frame (l : Link) : l.start.receiver = l.receiver ∧ l.start.forward = l.forward ∧ l.start.reports = l.reports
    ∧ l.start.errors = l.errors := by
  unfold Link.start
  repeat' split
  all_goals simp

/-- R173: the end of a telegram leaves the receiver and the error count. -/
theorem sent_frame (l : Link) : l.sent.receiver = l.receiver ∧ l.sent.errors = l.errors := by
  unfold Link.sent
  split <;> simp [start_frame]

/-- No change but those of the receiver moves the receiver. -/
theorem kept_receiver (rx : Receiver) : Kept (fun s => s.link.receiver = rx) (fun _ => True) where
  reports h _ _ := (start_frame _).1.trans h
  forwards h _ _ := (start_frame _).1.trans h
  sends h := (sent_frame _).1.trans h
  resets h _ hlink _ := (congrArg Link.receiver hlink).trans h

/-- R171: the telegram disposed of, the receiver holds no complete one. -/
theorem takeTelegram_receiver (s : State) (bytes : List Byte) (h : s.takeTelegram.link.receiver = .body bytes) :
    completed bytes = none := by
  unfold State.takeTelegram at h
  split at h
  · next hq => simp [hq] at h
  · next body hq =>
    split at h
    · next hnone =>
      rw [hq] at h
      cases h
      exact hnone
    · split at h
      · have hhunt := (kept_receiver (.hunt false)).dispose (t := ‹Telegram›) (s := s.setLink { s.link with receiver := .hunt false })
          trivial rfl
        rw [hhunt] at h
        simp at h
      · simp [Link.abandon, Link.countError] at h

/-- A guarded command answers its effect or the state as it was. -/
theorem answers_up {v : State} {up : Bool} (hv : P v) (h : P s) :
    ∃ u, (Host.Outcome.next (if up then v else s) : Result) = .next u ∧ P u := ⟨_, rfl, ite_keeps hv h⟩

theorem answers_addressed {v : State} {up addressed : Bool} (hv : P v) (h : P s) :
    ∃ u, (Host.Outcome.next (if up then if addressed then v else s else s) : Result) = .next u ∧ P u :=
  answers_up (ite_keeps hv h) h

end

section
variable {P : State → Prop} {C : Telegram → Prop} {s : State}

namespace KeptByAll
variable (K : KeptByAll P C)
include K

theorem takeTelegram (hc : ∀ t bytes check, s.link.receiver = .body bytes → completed bytes = some (t, check) → C t)
    (h : P s) : P s.takeTelegram := by
  unfold State.takeTelegram
  split
  · exact h
  · next bytes hq =>
    split
    · exact h
    · next t check hdone =>
      split
      · exact K.dispose (hc t bytes check hq hdone) (K.hunts h)
      · exact K.miscounts (K.hunts h)

theorem whenBroadcast {t : Telegram} {f : State → State} (hc : C t) (hf : ∀ v, P v → P (f v)) (h : P s) :
    ∃ u, Machine.whenBroadcast t s f = .next u ∧ P u := answers_up (ite_keeps h (K.broadcast hc hf h)) h

theorem lineModeRow (src : Byte) (b : Bool) (x : LineState) (hc : C (lineModeTelegram src x)) (h : P s) :
    ∃ u, Machine.lineModeRow src b x s = .next u ∧ P u := by
  cases b with
  | true => exact K.whenBroadcast hc (fun _ => K.lineModeAll x) h
  | false => exact answers_addressed (K.lineMode src x h) h

/-- Every command but COLD_RESET answers a next state, and keeps what every change keeps. -/
theorem exec (c : Instr) (hcold : ∀ na, c ≠ .coldReset na) (hc : ∀ t, Brings s c t → C t) (h : P s) :
    ∃ u, Machine.exec c s = .next u ∧ P u := by
  have hmode : ∀ src x, C (lineModeTelegram src x) := fun src x => hc _ (.inr (.inl ⟨src, x, rfl⟩))
  have htake : P s.takeTelegram := K.takeTelegram (fun t bytes check hq hd => hc t (.inl ⟨bytes, check, hq, hd⟩)) h
  cases c with
  | encoderPulse => exact answers_up (K.pulses (K.settle h)) h
  | cover x => exact K.execCover x h
  | uncover x => exact K.execUncover x h
  | confirmPositionReached x => exact answers_up (K.confirmReached x h) h
  | announceExpiry k => exact answers_up (K.expireHeads k h) h
  | overlengthWait t => exact answers_up (K.overlength t h) h
  | jam k => exact answers_up (K.jam k h) h
  | foldFire t j => exact answers_up (K.fireDue t _ h) h
  | divertOpenFire t => exact answers_up (K.fireDue t _ h) h
  | divertCloseFire t => exact answers_up (K.fireDue t _ h) h
  | busyUntilReached o => exact answers_up (K.busyReached o h) h
  | shotTimerExpiry o => exact answers_up (K.expireShot o h) h
  | dischargeTimeout k => exact answers_up (K.dischargeTimeout k h) h
  | sackRise k => exact answers_up (K.sackRise k h) h
  | sclrRise k => exact answers_up (K.sclrRise k h) h
  | drainCompletion => exact answers_up (K.completeDrain h) h
  | coldReset na => exact absurd rfl (hcold na)
  | telegramReceived => exact answers_up htake h
  | telegramSent => exact answers_up (K.sends h) h
  | unknownKind src kind => exact answers_addressed (ite_keeps h (K.answer _ _ _ h)) h
  | announce src p => exact answers_addressed (K.takeEntry _ p h) h
  | separator src p => exact answers_addressed (K.takeEntry _ p h) h
  | setupGlobals src p => exact answers_addressed (K.setupGlobals src p h) h
  | setupStation src p => exact answers_addressed (K.setupStation src p h) h
  | setupOutput src p => exact answers_addressed (K.setupOutput src p h) h
  | setupDiverter src p => exact answers_addressed (K.setupDiverter src p h) h
  | commitMap src p => exact answers_addressed (K.commitMap src p h) h
  | loadArticle src p => exact answers_addressed (K.loadArticle src p h) h
  | loadPlan src p => exact answers_addressed (K.loadPlan src p h) h
  | loadCustomer src p => exact answers_addressed (K.loadCustomer src p h) h
  | loadLanes src p => exact answers_addressed (K.loadLanes src p h) h
  | lockEntry src p => exact answers_addressed (K.lockEntry src p h) h
  | lineModeReady src b => exact K.lineModeRow src b _ (hmode ..) h
  | lineModeRun src b => exact K.lineModeRow src b _ (hmode ..) h
  | lineModeDrain src b => exact K.lineModeRow src b _ (hmode ..) h
  | lineModeService src b => exact K.lineModeRow src b _ (hmode ..) h
  | lineReset src b p =>
    cases b with
    | true => exact K.whenBroadcast (hc _ (.inr (.inr ⟨src, p, rfl, rfl⟩))) (fun _ => K.lineResetAll p) h
    | false => exact answers_addressed (K.lineReset src p h) h
  | stackCmdClose src l v => exact answers_addressed (K.stackCmd src l _ v h) h
  | stackCmdStop src l v => exact answers_addressed (K.stackCmd src l _ v h) h
  | stackCmdStopAfter src l v => exact answers_addressed (K.stackCmd src l _ v h) h
  | stackCmdResume src l v => exact answers_addressed (K.stackCmd src l _ v h) h
  | stackCmdTarget src l v => exact answers_addressed (K.stackCmd src l _ v h) h
  | clearLane src p => exact answers_addressed (K.clearLane src p h) h
  | forceOutputSet src b => exact answers_addressed (K.forceOutput src b _ h) h
  | forceOutputClear src b => exact answers_addressed (K.forceOutput src b _ h) h
  | forceOutputShot src b => exact answers_addressed (K.forceOutput src b _ h) h
  | tallyFreeze src p => exact answers_addressed (K.tallyFreeze src p h) h
  | tallyRead src p => exact answers_addressed (K.tallyRead src p h) h
  | statusRead src p => exact answers_addressed (K.statusRead src p h) h
  | itemRead src p => exact answers_addressed (K.itemRead src p h) h
  | rxdByte b ok => exact answers_up (K.hears b ok htake (takeTelegram_receiver s)) h
  | rstFalls => exact answers_up (K.falls h) h

end KeptByAll

/-- The state that COLD_RESET starts from (R165). -/
def coldState (na : BitVec 5) (s : State) : State :=
  { State.reset with
    pending := s.pending
    pins := { s.pins with rst := true }
    node := na
    unit := { PositionUnit.cold with
      lsQual := sampleQual s.pins.ls
      esQual := sampleQual s.pins.es }
    freeIndex := s.freeIndex }

theorem exec_coldReset (na : BitVec 5) (s : State) : exec (.coldReset na) s = .next (coldState na s) := rfl

/-- `P` is kept by COLD_RESET too and as a command leaves the queue, whose commands bring in telegrams with `C` alone. -/
structure Invariant (P : State → Prop) (C : Telegram → Prop) : Prop extends KeptByAll P C where
  colds : ∀ {s : State} (na : BitVec 5), P s → P (coldState na s)
  pops : ∀ {s : State} {c : Instr} {rest : List Instr}, P s → s.pending = c :: rest → P { s with pending := rest } := by
    intros; assumption
  brings : ∀ {s : State} {c : Instr} {rest : List Instr} {t : Telegram}, P s → s.pending = c :: rest → Brings s c t → C t

/-- What every change keeps, every step keeps. -/
theorem Invariant.step (K : Invariant P C) {u : State} (h : P s) (hstep : step s = .next u) : P u := by
  unfold Machine.step at hstep
  split at hstep
  · cases hstep
    exact K.idle h
  · next c rest hpending =>
    have hpopped := K.pops h hpending
    by_cases hcold : ∃ na, c = .coldReset na
    · obtain ⟨na, rfl⟩ := hcold
      cases hstep
      exact K.colds na hpopped
    · obtain ⟨v, hv, hPv⟩ := K.toKeptByAll.exec (s := { s with pending := rest }) c (fun na e => hcold ⟨na, e⟩) (fun t ht => K.brings h hpending ht) hpopped
      cases hv.symm.trans hstep
      exact hPv

end

end Sys2Proof.Proofs.Changes
end

section
/-! PROOFS. The invariants of the queue of commands, the qualifiers, the tally and the outbound line, each from what the
single changes do to it. -/

namespace Sys2Proof.Proofs.Invariants

open Sys2Proof Sys2Proof.Machine Sys2Proof.Safety Sys2Proof.Proofs.Changes

/-! ## Every command answers, and leaves the queue of commands (entry 26) -/

theorem pending_kept (l : List Instr) : KeptByAll (fun s => s.pending = l) (fun _ => True) where
  resets h hreset _ _ := by
    obtain ⟨-, -, -, -, -, -, -, -, -, -, -, -, hpending⟩ := hreset
    exact hpending.trans h

/-- Settles O3: COLD_RESET answers the cold state with the queue as it was, and no change of another command moves the
queue. -/
theorem everyCommandAnswersANextState : Obligations.EveryCommandAnswersANextState := by
  intro c s
  by_cases hcold : ∃ na, c = .coldReset na
  · obtain ⟨na, rfl⟩ := hcold
    exact ⟨_, exec_coldReset na s, rfl⟩
  · exact (pending_kept s.pending).exec c (fun na e => hcold ⟨na, e⟩) (fun _ _ => trivial) rfl

/-! ## Qualifiers (R8 to R10) -/

/-- R8: a qualifier is COVERED exactly while its input is high, for one sensor. -/
def Follows (s : State) (x : Sensor) : Prop := s.qual x = .covered ↔ s.pinLevel x = true

theorem sensorInv_iff (s : State) : SensorInv s ↔ (s.pins.rst = true → ∀ x, Follows s x) := by
  refine imp_congr_right fun _ => ⟨fun h x => ?_, fun h k => ⟨h (.ls k), h (.es k)⟩⟩
  cases x with
  | ls k => exact (h k).1
  | es k => exact (h k).2

theorem qual_setQual (s : State) (x y : Sensor) (q : Qualifier) : (s.setQual x q).qual y = if x = y then q else s.qual y := by
  cases x <;> cases y <;> simp [State.qual, getElem_upd, Fin.ext_iff]

theorem pinLevel_setPin (s : State) (x y : Sensor) (b : Bool) :
    (s.setPin x b).pinLevel y = if x = y then b else s.pinLevel y := by
  cases x <;> cases y <;> simp [State.pinLevel, getElem_upd, Fin.ext_iff]

theorem pinLevel_setQual (s : State) (x y : Sensor) (q : Qualifier) : (s.setQual x q).pinLevel y = s.pinLevel y := by
  cases x <;> cases y <;> rfl

theorem qual_setPin_any (s : State) (x y : Sensor) (b : Bool) : (s.setPin x b).qual y = s.qual y := by
  cases x <;> cases y <;> rfl

@[simp] theorem rst_setPin (s : State) (x : Sensor) (b : Bool) : (s.setPin x b).pins.rst = s.pins.rst := by
  cases x <;> rfl

/-- An edge that moves the input and its qualifier together keeps every qualifier with its input. -/
theorem follows_edge {s : State} {x y : Sensor} {b : Bool} {q : Qualifier} (hq : q = .covered ↔ b = true)
    (h : Follows s y) : Follows ((s.setPin x b).setQual x q) y := by
  unfold Follows
  rw [qual_setQual, pinLevel_setQual, pinLevel_setPin, qual_setPin_any]
  split
  · exact hq
  · exact h

theorem sensorInv_cold (na : BitVec 5) (s : State) : SensorInv (coldState na s) := by
  intro _ k
  have hsample : ∀ levels : Vector Bool 4, (sampleQual levels)[k] = .covered ↔ levels[k] = true := by
    intro levels
    cases hb : levels[k.1] <;> simp [sampleQual, hb]
  exact ⟨hsample _, hsample _⟩

theorem sensorInv : Invariant SensorInv (fun _ => True) where
  covers x h := (sensorInv_iff _).mpr fun hrst y => follows_edge (by simp) ((sensorInv_iff _).mp h (by simpa using hrst) y)
  uncovers x q h hq := (sensorInv_iff _).mpr fun hrst y =>
    follows_edge (by simpa using hq) ((sensorInv_iff _).mp h (by simpa using hrst) y)
  confirms {s} x q h hold hnew := (sensorInv_iff _).mpr fun hrst y => by
    have hfollows := (sensorInv_iff _).mp h (by simpa using hrst) y
    unfold Follows at hfollows ⊢
    rw [qual_setQual, pinLevel_setQual]
    split
    · next e =>
      subst e
      exact iff_of_false hnew fun hlevel => hold (hfollows.mpr hlevel)
    · exact hfollows
  levels x b h hlow := by
    intro hrst
    rw [rst_setPin, hlow] at hrst
    exact absurd hrst (by simp)
  pulses {s} h := by
    have hquals : s.unit.pulse.lsQual = s.unit.lsQual ∧ s.unit.pulse.esQual = s.unit.esQual := by
      unfold PositionUnit.pulse
      split <;> exact ⟨rfl, rfl⟩
    intro hrst k
    rw [setUnit_unit, hquals.1, hquals.2]
    exact h hrst k
  resets h hreset _ _ := by
    obtain ⟨-, -, -, -, -, -, -, -, hunit, -, -, hpins, -⟩ := hreset
    unfold SensorInv
    rw [hunit, hpins]
    exact h
  falls h hrst := by simp at hrst
  colds {s} na _ := sensorInv_cold na s
  brings _ _ _ := trivial

/-- Settles O12: every change of an input moves its qualifier with it, and every other change of a qualifier is of one
that is not COVERED. -/
theorem stepKeepsQualifiersWithTheirInputs : Obligations.StepKeepsQualifiersWithTheirInputs :=
  fun _ _ h hstep => sensorInv.step h hstep

/-! ## The tally (R130, R133, R134, R137) -/

/-- The part of `TallyInv` that speaks of one tally. -/
def TallyFits (t : Tally) : Prop :=
  t.live.length ≤ 128 ∧ t.live.Pairwise (fun x y => x.1.rank < y.1.rank) ∧ (∀ x ∈ t.live, rowFits x.2)
    ∧ rowFits t.overflow ∧ t.snapRows.length ≤ 129 ∧ ∀ x ∈ t.snapRows, rowFits x.row

theorem satAdd_le {c n : Nat} : (satAdd c n).1 ≤ 16777215 := by
  unfold satAdd
  split
  · exact le_rfl
  · omega

theorem rowFits_credit (r : TallyRow) (p n k : Nat) : rowFits (r.credit p n k) := ⟨satAdd_le, satAdd_le, satAdd_le⟩

theorem rowFits_zero : rowFits .zero := by simp [TallyRow.zero]

theorem mem_insertRow {key : Key} {row : TallyRow} {l : List (Key × TallyRow)} {x : Key × TallyRow} :
    x ∈ insertRow key row l ↔ x = (key, row) ∨ x ∈ l := by
  induction l with
  | nil => simp [insertRow]
  | cons a l ih =>
    simp only [insertRow]
    split
    · simp
    · simp [ih, or_left_comm]

theorem length_insertRow (key : Key) (row : TallyRow) (l : List (Key × TallyRow)) :
    (insertRow key row l).length = l.length + 1 := by
  induction l with
  | nil => rfl
  | cons a l ih =>
    simp only [insertRow]
    split
    · rfl
    · simp [ih]

/-- R130: no two keys have one place in key order. -/
theorem rank_injective : Function.Injective Key.rank := by
  intro a b h
  have hgroup : a.group.1 = b.group.1 := by unfold Key.rank at h; omega
  have harticle : a.article.1 = b.article.1 := by unfold Key.rank at h; omega
  cases a
  cases b
  simp_all [Fin.ext_iff]

/-- R133: a new row takes its place in key order. -/
theorem insertRow_sorted {key : Key} {row : TallyRow} {l : List (Key × TallyRow)}
    (hsorted : l.Pairwise (fun x y => x.1.rank < y.1.rank)) (hnew : ∀ x ∈ l, x.1 ≠ key) :
    (insertRow key row l).Pairwise (fun x y => x.1.rank < y.1.rank) := by
  induction l with
  | nil => simp [insertRow]
  | cons a l ih =>
    obtain ⟨hhead, htail⟩ := List.pairwise_cons.mp hsorted
    simp only [insertRow]
    split
    · next hlt =>
      refine List.pairwise_cons.mpr ⟨fun x hx => ?_, hsorted⟩
      rcases List.mem_cons.mp hx with rfl | hx
      · exact hlt
      · exact hlt.trans (hhead x hx)
    · next hge =>
      have hlt : a.1.rank < key.rank :=
        lt_of_le_of_ne (not_lt.mp hge) fun e => hnew a List.mem_cons_self (rank_injective e)
      refine List.pairwise_cons.mpr ⟨fun x hx => ?_, ih htail fun x hx => hnew x (List.mem_cons_of_mem _ hx)⟩
      rcases mem_insertRow.mp hx with rfl | hx
      · exact hlt
      · exact hhead x hx

/-- R133: the three ends of a credit: the key's row, a new row, or the overflow row. -/
theorem credit_cases (t : Tally) (key : Key) (p n r : Nat) :
    (t.live.any (fun x => x.1 = key) = true ∧ t.credit key p n r = { t with
        live := t.live.map (fun x => if x.1 = key then (x.1, x.2.credit p n r) else x) })
      ∨ ((∀ x ∈ t.live, x.1 ≠ key) ∧ t.live.length < 128 ∧ t.credit key p n r = { t with
        live := insertRow key (TallyRow.zero.credit p n r) t.live })
      ∨ ((∀ x ∈ t.live, x.1 ≠ key) ∧ 128 ≤ t.live.length ∧ t.credit key p n r = { t with
        overflow := t.overflow.credit p n r }) := by
  unfold Tally.credit
  split
  · next hany => exact .inl ⟨hany, rfl⟩
  · next hnone =>
    have hnew : ∀ x ∈ t.live, x.1 ≠ key := fun x hx e => hnone (List.any_eq_true.mpr ⟨x, hx, by simpa using e⟩)
    split
    · next hroom => exact .inr (.inl ⟨hnew, hroom, rfl⟩)
    · next hfull => exact .inr (.inr ⟨hnew, not_lt.mp hfull, rfl⟩)

theorem tallyFits_credit {t : Tally} (key : Key) (p n r : Nat) (h : TallyFits t) : TallyFits (t.credit key p n r) := by
  obtain ⟨hlength, hsorted, hrows, hoverflow, hsnap, hsnapRows⟩ := h
  rcases credit_cases t key p n r with ⟨-, e⟩ | ⟨hnew, hroom, e⟩ | ⟨-, -, e⟩ <;> rw [e]
  · refine ⟨by simpa using hlength, ?_, ?_, hoverflow, hsnap, hsnapRows⟩
    · refine List.pairwise_map.mpr (hsorted.imp fun {x y} hxy => ?_)
      split <;> split <;> exact hxy
    · intro x hx
      obtain ⟨y, hy, rfl⟩ := List.mem_map.mp hx
      split
      · exact rowFits_credit ..
      · exact hrows y hy
  · refine ⟨?_, insertRow_sorted hsorted hnew, fun x hx => ?_, hoverflow, hsnap, hsnapRows⟩
    · rw [length_insertRow]
      exact hroom
    · rcases mem_insertRow.mp hx with rfl | hx
      · exact rowFits_credit ..
      · exact hrows x hx
  · exact ⟨hlength, hsorted, hrows, rowFits_credit .., hsnap, hsnapRows⟩

theorem tallyFits_freeze {t : Tally} (p : Pos) (clear : Bool) (h : TallyFits t) : TallyFits (t.freeze p clear) := by
  obtain ⟨hlength, hsorted, hrows, hoverflow, -, -⟩ := h
  have hsnap : t.frozenRows.length ≤ 129 := by
    simp only [Tally.frozenRows, List.length_append, List.length_map]
    split <;> simp <;> omega
  have hsnapRows : ∀ x ∈ t.frozenRows, rowFits x.row := by
    intro x hx
    rcases List.mem_append.mp hx with hx | hx
    · obtain ⟨y, hy, rfl⟩ := List.mem_map.mp hx
      exact hrows y hy
    · split at hx
      · simp at hx
      · rw [List.mem_singleton.mp hx]
        exact hoverflow
  cases clear with
  | true => exact ⟨Nat.zero_le _, .nil, by simp [Tally.freeze], rowFits_zero, hsnap, hsnapRows⟩
  | false => exact ⟨hlength, hsorted, hrows, hoverflow, hsnap, hsnapRows⟩

theorem tallyFits_cold : TallyFits .cold := by
  refine ⟨by simp [Tally.cold], .nil, by simp [Tally.cold], rowFits_zero, by simp [Tally.cold], by simp [Tally.cold]⟩

theorem tallyInv : Invariant TallyInv (fun _ => True) where
  credits key p n r h := tallyFits_credit key p n r h
  freezes clear h := tallyFits_freeze _ clear h
  readsOut h := by
    obtain ⟨hlength, hsorted, hrows, hoverflow, hsnap, hsnapRows⟩ := h
    exact ⟨hlength, hsorted, hrows, hoverflow, (List.drop_sublist ..).length_le.trans hsnap,
      fun x hx => hsnapRows x (List.mem_of_mem_drop hx)⟩
  resets {s u} h hreset _ _ := by
    obtain ⟨-, -, -, -, -, -, -, htally, -⟩ := hreset
    change TallyFits u.tally
    rw [htally]
    refine List.foldlRecOn allLanes _ h fun t ht k _ => ?_
    split
    · exact tallyFits_credit _ _ _ _ ht
    · exact ht
  colds _ _ := tallyFits_cold
  brings _ _ _ := trivial

/-- Settles O8: a credit keeps key order and the counters' limit, and a freeze takes at most the 128 keyed rows and the
overflow row. -/
theorem stepKeepsTheTally : Obligations.StepKeepsTheTally := fun _ _ h hstep => tallyInv.step h hstep

/-! ## The queues and the link (R17, R171 to R173) -/

/-- R173: the transmitter is on the head of a buffer that has one, and the buffers are within their bounds. -/
def LinkFits (l : Link) : Prop :=
  l.forward.length ≤ 2 ∧ l.reports.length ≤ 16 ∧ l.errors ≤ 255
    ∧ (l.transmitter = .forwarding → l.forward ≠ []) ∧ (l.transmitter = .reporting → l.reports ≠ [])

/-- R173: the transmitter is idle only when nothing waits. -/
def Serves (l : Link) : Prop := l.transmitter = .idle → l.forward = [] ∧ l.reports = []

theorem boundsInv_iff (s : State) : BoundsInv s ↔
    (∀ k : Lane, (s.queues[k]).length ≤ 8) ∧ LinkFits s.link ∧ (s.pins.rst = true → Serves s.link) := by
  unfold BoundsInv LinkFits Serves
  tauto

theorem linkFits_start {l : Link} (h : LinkFits l) : LinkFits l.start ∧ Serves l.start := by
  obtain ⟨hforward, hreports, herrors, htf, htr⟩ := h
  unfold Link.start
  split
  · next hidle =>
    split
    · next hne => exact ⟨⟨hforward, hreports, herrors, fun _ => hne, by simp⟩, by simp [Serves]⟩
    · split
      · next hne => exact ⟨⟨hforward, hreports, herrors, by simp, fun _ => hne⟩, by simp [Serves]⟩
      · next hf hr => exact ⟨⟨hforward, hreports, herrors, htf, htr⟩, fun _ => ⟨not_not.mp hf, not_not.mp hr⟩⟩
  · next hbusy => exact ⟨⟨hforward, hreports, herrors, htf, htr⟩, fun hidle => absurd hidle hbusy⟩

theorem linkFits_sent {l : Link} (h : LinkFits l) : LinkFits l.sent ∧ (Serves l → Serves l.sent) := by
  have ⟨hforward, hreports, herrors, htf, htr⟩ := h
  unfold Link.sent
  split
  · exact ⟨h, id⟩
  · have hstart := linkFits_start (l := { l with forward := l.forward.tail, transmitter := .idle })
      ⟨by simpa using Nat.le_succ_of_le hforward, hreports, herrors, by simp, by simp⟩
    exact ⟨hstart.1, fun _ => hstart.2⟩
  · have hstart := linkFits_start (l := { l with reports := l.reports.tail, transmitter := .idle })
      ⟨hforward, by simpa using Nat.le_succ_of_le hreports, herrors, by simp, by simp⟩
    exact ⟨hstart.1, fun _ => hstart.2⟩

theorem countError_le (l : Link) : l.countError.errors ≤ 255 := by
  simp only [Link.countError]
  split <;> omega

/-- R171: a byte that is heard moves the receiver and the error count alone. -/
theorem receive_frame (l : Link) (b : Byte) (ok : Bool) :
    (l.receive b ok).forward = l.forward ∧ (l.receive b ok).reports = l.reports
      ∧ (l.receive b ok).transmitter = l.transmitter ∧ (l.errors ≤ 255 → (l.receive b ok).errors ≤ 255) := by
  have hcount := countError_le { l with receiver := .hunt false }
  unfold Link.receive
  split
  · repeat' split
    all_goals exact ⟨rfl, rfl, rfl, id⟩
  · split
    · exact ⟨rfl, rfl, rfl, fun _ => hcount⟩
    · split
      · exact ⟨rfl, rfl, rfl, fun _ => hcount⟩
      · exact ⟨rfl, rfl, rfl, id⟩

/-- The bounds, with a link that fits and serves. -/
theorem boundsInv_link {s : State} {l : Link} (h : BoundsInv s) (hfits : LinkFits l) (hserves : s.pins.rst = true → Serves l) :
    BoundsInv (s.setLink l) :=
  (boundsInv_iff _).mpr ⟨h.1, hfits, hserves⟩

theorem boundsInv_cold (na : BitVec 5) (s : State) : BoundsInv (coldState na s) := by
  refine (boundsInv_iff _).mpr ⟨?_, ?_, ?_⟩
  · intro k
    simp [coldState, State.reset]
  · simp [coldState, State.reset, Link.cold, LinkFits]
  · simp [coldState, State.reset, Link.cold, Serves]

theorem boundsInv : Invariant BoundsInv (fun _ => True) where
  reports {s ts} h _ hroom := by
    obtain ⟨-, ⟨hforward, -, herrors, htf, htr⟩, -⟩ := (boundsInv_iff s).mp h
    have hstart := linkFits_start (l := { s.link with reports := s.link.reports ++ ts })
      ⟨hforward, by simpa using hroom, herrors, htf, fun ht => by simp [htr ht]⟩
    exact boundsInv_link h hstart.1 fun _ => hstart.2
  forwards {s t} h _ hroom := by
    obtain ⟨-, ⟨-, hreports, herrors, htf, htr⟩, -⟩ := (boundsInv_iff s).mp h
    have hstart := linkFits_start (l := { s.link with forward := s.link.forward ++ [t] })
      ⟨by simpa using hroom, hreports, herrors, by simp, htr⟩
    exact boundsInv_link h hstart.1 fun _ => hstart.2
  miscounts {s} h := by
    obtain ⟨-, ⟨hforward, hreports, -, htf, htr⟩, hserves⟩ := (boundsInv_iff s).mp h
    exact boundsInv_link h ⟨hforward, hreports, countError_le _, htf, htr⟩ hserves
  sends {s} h := by
    obtain ⟨-, hfits, hserves⟩ := (boundsInv_iff s).mp h
    have ⟨hsent, hserved⟩ := linkFits_sent hfits
    exact boundsInv_link h hsent fun hrst => hserved (hserves hrst)
  queues {s} k q h hq := by
    refine ⟨fun j => ?_, h.2⟩
    by_cases hj : k = j
    · subst hj
      have hk := h.1 k
      rcases hq with hq | ⟨-, hq⟩
      · simpa using hq.trans hk
      · simpa using hq
    · have := h.1 j
      simpa [getElem_upd, Fin.val_ne_of_ne hj] using this
  resets {s u} h hreset hlink _ := by
    obtain ⟨-, -, -, -, -, -, hqueues, -, -, -, -, hpins, -⟩ := hreset
    obtain ⟨-, hfits, hserves⟩ := (boundsInv_iff s).mp h
    refine (boundsInv_iff u).mpr ⟨fun k => by simp [(hqueues k).1], hlink ▸ hfits, ?_⟩
    rw [hlink, hpins]
    exact hserves
  hears {s} b ok h _ := by
    obtain ⟨-, ⟨hforward, hreports, herrors, htf, htr⟩, hserves⟩ := (boundsInv_iff s).mp h
    obtain ⟨ef, er, et, ee⟩ := receive_frame s.link b ok
    refine boundsInv_link h ?_ ?_
    · exact ⟨ef ▸ hforward, er ▸ hreports, ee herrors, by rwa [et, ef], by rwa [et, er]⟩
    · unfold Serves
      rwa [et, ef, er]
  falls {s} h := by
    obtain ⟨hqueues, ⟨hforward, hreports, herrors, -, -⟩, -⟩ := (boundsInv_iff s).mp h
    refine (boundsInv_iff _).mpr ⟨hqueues, ⟨?_, ?_, herrors, by simp [Link.cut], by simp [Link.cut]⟩, by simp⟩
    · simp only [setLink_link, Link.cut]
      split
      · simpa using Nat.le_succ_of_le hforward
      · exact hforward
    · simp only [setLink_link, Link.cut]
      split
      · simpa using Nat.le_succ_of_le hreports
      · exact hreports
  colds {s} na _ := boundsInv_cold na s
  brings _ _ _ := trivial

/-- Settles O6: a buffer grows only where it has room, and whatever leaves the transmitter idle starts it. -/
theorem stepKeepsTheBounds : Obligations.StepKeepsTheBounds := fun _ _ h hstep => boundsInv.step h hstep

end Sys2Proof.Proofs.Invariants
end

section
/-! PROOFS. The invariants of the frame, the lane counters, the stackers and the idle line, each from what the single
changes do to it. -/

namespace Sys2Proof.Proofs.Keeping

open Sys2Proof Sys2Proof.Machine Sys2Proof.Safety Sys2Proof.Proofs.Changes Sys2Proof.Proofs.Invariants

/-! ## Records after a change of the table -/

theorem record_setRecord (s : State) (t t' : Tag) (r : ItemRecord) :
    (s.setRecord t r).record t' = if t = t' then some r else s.record t' := by
  simp [State.record, getElem_upd, Fin.ext_iff]

theorem record_retired (s : State) (t t' : Tag) (k : Lane) (c : CounterKind) :
    (((s.freeSlot t).cancelAll t).count k c).record t' = if t = t' then none else s.record t' := by
  simp [State.record, State.count, State.cancelAll, State.freeSlot, State.setEntries, getElem_upd, Fin.ext_iff]

theorem record_entered (s : State) (t t' : Tag) (r : ItemRecord) (k : Lane) (c : CounterKind) :
    ((s.addRecord t r).count k c).record t' = if t = t' then some r else s.record t' := by
  simp [State.record, State.count, State.addRecord, getElem_upd, Fin.ext_iff]

theorem record_reset (t : Tag) : State.reset.record t = none := by
  simp [State.record, State.reset, Tracking.cold]

/-- A fact that holds of a record and of its replacement's shape holds of the table after the replacement. -/
theorem forall_record_ite {s : State} {t : Tag} {o : Option ItemRecord} {Q : ItemRecord → Prop}
    (h : ∀ t', ∀ r ∈ s.record t', Q r) (ho : ∀ r ∈ o, Q r) (t' : Tag) :
    ∀ r ∈ (if t = t' then o else s.record t'), Q r := by
  split
  · exact ho
  · exact h t'

/-! ## The frame (R170) -/

theorem length_itemPart1 (s : State) (t : Tag) (r : ItemRecord) : (s.itemPart1 t r).length = 34 := rfl

theorem length_itemPart2 (t : Tag) (r : ItemRecord) : (itemPart2 t r).length = 1 + 9 * r.steps.length := by
  have hstep : ∀ x : FoldStep, x.itemBytes.length = 9 := fun _ => rfl
  simp [itemPart2, List.length_flatMap, hstep]
  omega

/-- R177: the answers of an ITEM_READ are within the frame while the record has at most 4 steps. -/
theorem itemAnswers_fit {s : State} (h : ∀ t : Tag, ∀ r ∈ s.record t, r.steps.length ≤ 4) (src : Byte) (t : Tag) :
    ∀ x ∈ s.itemAnswers src t, x.payload.length ≤ 40 := by
  unfold State.itemAnswers
  split
  · simp [State.answerTelegram]
  · next r hr =>
    have hsteps := h t r hr
    have h1 : (s.answerTelegram src kindItemRead .accepted 1 (s.itemPart1 t r)).payload.length ≤ 40 := by
      simp [State.answerTelegram, length_itemPart1]
    have h2 : (s.answerTelegram src kindItemRead .accepted 2 (itemPart2 t r)).payload.length ≤ 40 := by
      simp only [State.answerTelegram, List.length_append, length_itemPart2, List.length_cons, List.length_nil]
      omega
    split
    · exact List.forall_mem_singleton.mpr h1
    · exact List.forall_mem_cons.mpr ⟨h1, List.forall_mem_singleton.mpr h2⟩

/-- R30: a record is bound with as many steps as its plan has. -/
theorem boundRecord_steps_le {s : State} (h : ∀ n : PlanNo, ∀ steps ∈ s.setup.plans[n], steps.length ≤ 4) (k : Lane)
    (p : Pos) (b : Bound) : (s.boundRecord k p b).steps.length ≤ 4 := by
  simp only [State.boundRecord, State.copyRow]
  split
  · simp
  · next row _ =>
    split
    · cases hplan : s.setup.plans[row.plan] with
      | none => simp
      | some steps => simpa [hplan] using h _ _ hplan
    · simp

/-- R171: a body that has room for one more byte keeps within its frame. -/
theorem bodyFits_append {bytes : List Byte} {b : Byte} (h : bodyFits bytes) (hroom : completed bytes = none)
    (hlength : ¬(bytes.length = 5 ∧ 40 < b.toNat)) : bodyFits (bytes ++ [b]) := by
  obtain ⟨hmark, hbody⟩ := h
  match bytes, hmark with
  | [_, _], hmark => exact ⟨hmark, by simp⟩
  | [_, _, _], hmark => exact ⟨hmark, by simp⟩
  | [_, _, _, _], hmark => exact ⟨hmark, by simp⟩
  | [_, _, _, _, _], hmark =>
    refine ⟨hmark, fun n hn => ?_⟩
    obtain rfl : b = n := by simpa using hn
    have hn40 : ¬40 < b.toNat := fun hlt => hlength ⟨rfl, hlt⟩
    exact ⟨by omega, by simp; omega⟩
  | _ :: _ :: dest :: src :: kind :: n :: rest, hmark =>
    refine ⟨hmark, fun m hm => ?_⟩
    obtain rfl : n = m := by simpa using hm
    obtain ⟨h40, hlen⟩ := hbody n rfl
    have hshort : rest.length ≠ n.toNat + 2 := by
      intro e
      simp [completed, e] at hroom
    simp only [List.length_append, List.length_cons, List.length_nil] at hlen ⊢
    omega

theorem bodyFits_mark : bodyFits [0xD3, 0x2C] := ⟨rfl, by simp⟩

theorem bodyFits_receive {l : Link} (h : ∀ bytes, l.receiver = .body bytes → bodyFits bytes)
    (hroom : ∀ bytes, l.receiver = .body bytes → completed bytes = none) (b : Byte) (ok : Bool) :
    ∀ bytes, (l.receive b ok).receiver = .body bytes → bodyFits bytes := by
  unfold Link.receive
  split
  · split
    · simp
    · split
      · rintro bytes ⟨⟩
        exact bodyFits_mark
      · simp
  · next body hbody =>
    split
    · simp [Link.abandon, Link.countError]
    · split
      · simp [Link.abandon, Link.countError]
      · next hlength =>
        rintro bytes ⟨⟩
        exact bodyFits_append (h _ hbody) (hroom _ hbody) hlength

/-- R170: the payload of a completed body is within the frame. -/
theorem completed_fits {bytes : List Byte} {t : Telegram} {check : List Byte} (h : bodyFits bytes)
    (hdone : completed bytes = some (t, check)) : t.payload.length ≤ 40 := by
  unfold completed at hdone
  split at hdone
  · next n rest =>
    split at hdone
    · cases hdone
      have := (h.2 n rfl).1
      simp only [List.length_take]
      omega
    · simp at hdone
  · simp at hdone

/-- The frame with another link, whose buffers draw on telegrams that fit. -/
theorem frameInv_link {s : State} {l : Link} (h : FrameInv s) (hf : ∀ t ∈ l.forward, t.payload.length ≤ 40)
    (hr : ∀ t ∈ l.reports, t.payload.length ≤ 40) (hbody : ∀ bytes, l.receiver = .body bytes → bodyFits bytes) :
    FrameInv (s.setLink l) := by
  obtain ⟨-, -, -, hplans, hrecords, hpending⟩ := h
  exact ⟨hf, hr, hbody, hplans, hrecords, hpending⟩

/-- The frame with another table of records, each of at most 4 steps. -/
theorem frameInv_records {s u : State} (h : FrameInv s) (hlink : u.link = s.link) (hsetup : u.setup = s.setup)
    (hpending : u.pending = s.pending) (hrecords : ∀ t : Tag, ∀ r ∈ u.record t, r.steps.length ≤ 4) : FrameInv u := by
  obtain ⟨hforward, hreports, hbody, hplans, -, hcommands⟩ := h
  exact ⟨hlink ▸ hforward, hlink ▸ hreports, hlink ▸ hbody, hsetup ▸ hplans, hrecords, hpending ▸ hcommands⟩

theorem frameInv_cold (na : BitVec 5) {s : State} (hpending : ∀ c ∈ s.pending, wellFormed c = true) :
    FrameInv (coldState na s) := by
  refine ⟨?_, ?_, ?_, ?_, ?_, hpending⟩
  · simp [coldState, State.reset, Link.cold]
  · simp [coldState, State.reset, Link.cold]
  · simp [coldState, State.reset, Link.cold]
  · simp [coldState, State.reset, Setup.cold]
  · intro t
    change ∀ r ∈ State.reset.record t, _
    simp [record_reset]

theorem frameInv : Invariant FrameInv (fun t => t.payload.length ≤ 40) where
  reports {s ts} h hts _ := by
    have ⟨hforward, hreports, hbody, _, hrecords, _⟩ := h
    obtain ⟨ereceiver, eforward, ereports, -⟩ := start_frame { s.link with reports := s.link.reports ++ ts }
    have hnew : ∀ t ∈ ts, t.payload.length ≤ 40 := by
      rcases hts with hts | ⟨src, t, rfl⟩
      · exact hts
      · exact itemAnswers_fit hrecords src t
    refine frameInv_link h (eforward ▸ hforward) ?_ (ereceiver ▸ hbody)
    rw [ereports]
    exact List.forall_mem_append.mpr ⟨hreports, hnew⟩
  forwards {s t} h ht _ := by
    have ⟨hforward, hreports, hbody, _⟩ := h
    obtain ⟨ereceiver, eforward, ereports, -⟩ := start_frame { s.link with forward := s.link.forward ++ [t] }
    refine frameInv_link h ?_ (ereports ▸ hreports) (ereceiver ▸ hbody)
    rw [eforward]
    exact List.forall_mem_append.mpr ⟨hforward, by simpa using ht⟩
  sends {s} h := by
    have ⟨hforward, hreports, hbody, _⟩ := h
    refine frameInv_link h ?_ ?_ ((sent_frame s.link).1 ▸ hbody)
    all_goals
      unfold Link.sent
      split
    · exact hforward
    · rw [(start_frame _).2.1]
      exact fun t ht => hforward t (List.mem_of_mem_tail ht)
    · rw [(start_frame _).2.1]
      exact hforward
    · exact hreports
    · rw [(start_frame _).2.2.1]
      exact hreports
    · rw [(start_frame _).2.2.1]
      exact fun t ht => hreports t (List.mem_of_mem_tail ht)
  rewrites {s t r r'} h hr _ _ hsteps := by
    have ⟨_, _, _, _, hrecords, _⟩ := h
    refine frameInv_records h rfl rfl rfl fun t' => ?_
    rw [record_setRecord]
    exact forall_record_ite hrecords (by simpa [hsteps] using hrecords t r hr) t'
  retires {s t r} f h _ := by
    have ⟨_, _, _, _, hrecords, _⟩ := h
    refine frameInv_records h rfl rfl rfl fun t' => ?_
    rw [record_retired]
    exact forall_record_ite hrecords (by simp) t'
  enters {s} k p b t h _ _ := by
    have ⟨_, _, _, hplans, hrecords, _⟩ := h
    refine frameInv_records h rfl rfl rfl fun t' => ?_
    rw [record_entered]
    exact forall_record_ite hrecords (by simpa using boundRecord_steps_le hplans k p b) t'
  commits {s} h _ := by
    obtain ⟨hforward, hreports, hbody, -, hrecords, hpending⟩ := h
    exact ⟨hforward, hreports, hbody, by simp [State.commit, Setup.commit, Setup.cold], hrecords, hpending⟩
  loads {s x} h _ hload := by
    obtain ⟨hforward, hreports, hbody, hplans, hrecords, hpending⟩ := h
    refine ⟨hforward, hreports, hbody, fun n => ?_, hrecords, hpending⟩
    rcases hload.plans n with e | ⟨-, hfits⟩
    · exact fun steps hsteps => hplans n steps (e ▸ hsteps)
    · exact hfits
  resets {s u} h hreset hlink _ := by
    obtain ⟨-, hrecords, -, -, -, -, -, -, -, hsetup, -, -, hpending⟩ := hreset
    exact frameInv_records h hlink hsetup hpending fun t => by simp [hrecords t]
  hunts {s} h := by
    have ⟨hforward, hreports, _⟩ := h
    exact frameInv_link h hforward hreports (by simp)
  hears {s} b ok h hroom := by
    have ⟨hforward, hreports, hbody, _⟩ := h
    obtain ⟨ef, er, -⟩ := receive_frame s.link b ok
    exact frameInv_link h (ef ▸ hforward) (er ▸ hreports) (bodyFits_receive hbody hroom b ok)
  falls {s} h := by
    obtain ⟨hforward, hreports, -, hplans, hrecords, hpending⟩ := h
    refine ⟨?_, ?_, by simp [Link.cut], hplans, hrecords, hpending⟩
    · simp only [setLink_link, Link.cut]
      split
      · exact fun t ht => hforward t (List.mem_of_mem_tail ht)
      · exact hforward
    · simp only [setLink_link, Link.cut]
      split
      · exact fun t ht => hreports t (List.mem_of_mem_tail ht)
      · exact hreports
  colds {s} na h := by
    obtain ⟨-, -, -, -, -, hpending⟩ := h
    exact frameInv_cold na hpending
  pops {s c rest} h hpending := by
    obtain ⟨hforward, hreports, hbody, hplans, hrecords, hcommands⟩ := h
    refine ⟨hforward, hreports, hbody, hplans, hrecords, fun x hx => hcommands x ?_⟩
    rw [hpending]
    exact List.mem_cons_of_mem c hx
  brings {s c rest t} h hpending ht := by
    obtain ⟨-, -, hbody, -, -, hcommands⟩ := h
    rcases ht with ⟨bytes, check, hreceiver, hdone⟩ | ⟨src, target, rfl⟩ | ⟨src, p, rfl, rfl⟩
    · exact completed_fits (hbody bytes hreceiver) hdone
    · simp [lineModeTelegram]
    · have := hcommands (.lineReset src true p) (by simp [hpending])
      simp only [wellFormed, Bool.and_eq_true, payloadFits, decide_eq_true_eq] at this
      exact this.2

/-- Settles O7: what the part makes is within the frame by its form, and what it forwards came within the frame. -/
theorem stepKeepsTelegramsWithinTheFrame : Obligations.StepKeepsTelegramsWithinTheFrame :=
  fun _ _ h hstep => frameInv.step h hstep

end Sys2Proof.Proofs.Keeping
end

section
/-! PROOFS. The lane counters and the entry order, from what the single changes do to them. -/

namespace Sys2Proof.Proofs.Counting

open Sys2Proof Sys2Proof.Machine Sys2Proof.Safety Sys2Proof.Proofs.Changes Sys2Proof.Proofs.Keeping

/-! ## The live count of a lane (R54) after a change of one slot -/

/-- A slot that holds a record of lane `k`. -/
def onLane (k : Lane) (o : Option ItemRecord) : Bool := o.any (fun r => r.lane = k)

/-- What one slot adds to the live count of lane `k`. -/
def slotCount (k : Lane) (o : Option ItemRecord) : Nat := if onLane k o then 1 else 0

theorem slotCount_some (k : Lane) (r : ItemRecord) : slotCount k (some r) = if r.lane = k then 1 else 0 := by
  simp [slotCount, onLane]

theorem slotCount_none (k : Lane) : slotCount k none = 0 := rfl

theorem countP_upd (v : Vector (Option ItemRecord) 24) (t : Tag) (o : Option ItemRecord) (k : Lane) :
    (upd v t o).toList.countP (onLane k) + slotCount k v[t] = v.toList.countP (onLane k) + slotCount k o := by
  have hpos : onLane k v[t.1] = true → 0 < v.toList.countP (onLane k) := fun h =>
    List.countP_pos_iff.mpr ⟨v[t.1], by simp, h⟩
  simp only [upd, Vector.toList_set, slotCount, List.countP_set, Vector.getElem_toList, Vector.length_toList,
    Fin.getElem_fin, t.2]
  by_cases hold : onLane k v[t.1] = true
  · have := hpos hold
    simp only [hold, if_true]
    omega
  · simp only [hold, Bool.false_eq_true, if_false]
    omega

theorem liveCount_slot {s u : State} {t : Tag} {o : Option ItemRecord} (h : u.track.slots = upd s.track.slots t o) (k : Lane) :
    u.liveCount k + slotCount k (s.record t) = s.liveCount k + slotCount k o := by
  have := countP_upd s.track.slots t o k
  rwa [← h] at this

theorem liveCount_none {s : State} (h : ∀ t : Tag, s.record t = none) (k : Lane) : s.liveCount k = 0 := by
  refine List.countP_eq_zero.mpr fun o ho => ?_
  obtain ⟨i, hi, rfl⟩ := List.mem_iff_getElem.mp ho
  have := h ⟨i, by simpa using hi⟩
  simp only [State.record, Fin.getElem_fin] at this
  simp [this]

theorem boundRecord_lane (s : State) (k : Lane) (p : Pos) (b : Bound) : (s.boundRecord k p b).lane = k := rfl

/-! ## The balance (R56) -/

/-- R56: one lane's counters against its live count. -/
def Balanced (c : LaneCounters) (n : Nat) : Prop :=
  c.entered = c.arrived + c.rejected + c.jammed + c.discarded + BitVec.ofNat 24 n

theorem counters_count (s : State) (k k' : Lane) (c : CounterKind) :
    (s.count k c).track.counters[k'] = if k = k' then (s.track.counters[k]).advance c else s.track.counters[k'] := by
  simp [State.count, getElem_upd, Fin.ext_iff]

/-- R37: a record entered adds one to the count and one to the live count. -/
theorem Balanced.enter {c : LaneCounters} {n : Nat} (h : Balanced c n) : Balanced (c.advance .entered) (n + 1) := by
  simp only [Balanced, LaneCounters.advance] at *
  rw [h]
  bv_omega

/-- R56: a record retired takes one from the live count and adds one to its fate. -/
theorem Balanced.retire {c : LaneCounters} {n : Nat} (f : Fate) (h : Balanced c (n + 1)) :
    Balanced (c.advance f.counter) n := by
  cases f <;>
  · simp only [Balanced, LaneCounters.advance, Fate.counter] at *
    rw [h]
    bv_omega

/-- R164: the records discarded move from the live count to their fate together. -/
theorem Balanced.discard {c : LaneCounters} {n : Nat} (h : Balanced c n) :
    Balanced { c with discarded := c.discarded + BitVec.ofNat 24 n } 0 := by
  simp only [Balanced] at *
  rw [h]
  bv_omega

theorem counterInv_iff (s : State) :
    CounterInv s ↔ OrderInv s ∧ ∀ k : Lane, Balanced s.track.counters[k] (s.liveCount k) := Iff.rfl

/-! ## The entry order (R36) -/

theorem nodup_append_new {l : List Tag} {t : Tag} (h : l.Nodup) (ht : t ∉ l) : (l ++ [t]).Nodup := by
  rw [List.nodup_append]
  refine ⟨h, by simp, fun x hx y hy e => ht ?_⟩
  rwa [← List.mem_singleton.mp hy, ← e]

theorem counterInv_cold (na : BitVec 5) (s : State) : CounterInv (coldState na s) := by
  have hrecords : ∀ t : Tag, (coldState na s).record t = none := record_reset
  refine (counterInv_iff _).mpr ⟨⟨.nil, fun t => ?_⟩, fun k => ?_⟩
  · rw [hrecords t]
    simp [coldState, State.reset, Tracking.cold]
  · rw [liveCount_none hrecords]
    simp [Balanced, coldState, State.reset, Tracking.cold]

theorem counterInv : Invariant CounterInv (fun _ => True) where
  rewrites {s t r r'} h hr hlane _ _ := by
    obtain ⟨⟨hnodup, hlive⟩, hbalance⟩ := (counterInv_iff s).mp h
    refine ⟨⟨hnodup, fun t' => ?_⟩, fun k => ?_⟩
    · rw [record_setRecord]
      refine (hlive t').trans ?_
      split
      · next e => simp [← e, hr]
      · rfl
    · have hcount := liveCount_slot (s := s) (u := s.setRecord t r') rfl k
      rw [hr, slotCount_some, slotCount_some, hlane] at hcount
      rw [show (s.setRecord t r').liveCount k = s.liveCount k by omega]
      exact hbalance k
  retires {s t r} f h hr := by
    obtain ⟨⟨hnodup, hlive⟩, hbalance⟩ := (counterInv_iff s).mp h
    refine ⟨⟨hnodup.filter _, fun t' => ?_⟩, fun k => ?_⟩
    · rw [record_retired]
      refine List.mem_filter.trans ?_
      split
      · next e => simp [e]
      · next hne => simp [hlive t', Ne.symm hne]
    · have hcount := liveCount_slot (s := s) (u := ((s.freeSlot t).cancelAll t).count r.lane f.counter) (t := t) (o := none) rfl k
      rw [hr, slotCount_some, slotCount_none] at hcount
      have hk := hbalance k
      change Balanced _ _
      rw [counters_count]
      split
      · next e =>
        subst e
        rw [if_pos rfl] at hcount
        rw [show s.liveCount r.lane = (((s.freeSlot t).cancelAll t).count r.lane f.counter).liveCount r.lane + 1 by omega] at hk
        exact hk.retire f
      · next hne =>
        rw [if_neg hne] at hcount
        rw [show (((s.freeSlot t).cancelAll t).count r.lane f.counter).liveCount k = s.liveCount k by omega]
        exact hk
  enters {s} k p b t h _ ht := by
    obtain ⟨⟨hnodup, hlive⟩, hbalance⟩ := (counterInv_iff s).mp h
    have hnew : t ∉ s.track.order := by simp [hlive t, ht]
    refine ⟨⟨nodup_append_new hnodup hnew, fun t' => ?_⟩, fun k' => ?_⟩
    · rw [record_entered]
      refine List.mem_append.trans ?_
      split
      · next e => simp [e]
      · next hne => simp [hlive t', Ne.symm hne]
    · have hcount := liveCount_slot (s := s) (u := (s.addRecord t (s.boundRecord k p b)).count k .entered) (t := t) (o := some (s.boundRecord k p b)) rfl k'
      rw [ht, slotCount_some, slotCount_none, boundRecord_lane] at hcount
      have hk := hbalance k'
      change Balanced _ _
      rw [counters_count]
      split
      · next e =>
        subst e
        rw [if_pos rfl] at hcount
        rw [show ((s.addRecord t (s.boundRecord k p b)).count k .entered).liveCount k = s.liveCount k + 1 by omega]
        exact hk.enter
      · next hne =>
        rw [if_neg hne] at hcount
        rw [show ((s.addRecord t (s.boundRecord k p b)).count k .entered).liveCount k' = s.liveCount k' by omega]
        exact hk
  resets {s u} h hreset _ _ := by
    obtain ⟨-, hrecords, horder, hcounters, -⟩ := hreset
    refine (counterInv_iff u).mpr ⟨⟨by simp [horder], fun t => by simp [horder, hrecords t]⟩, fun k => ?_⟩
    rw [hcounters k, liveCount_none hrecords]
    exact ((counterInv_iff s).mp h).2 k |>.discard
  colds {s} na _ := counterInv_cold na s
  brings _ _ _ := trivial

/-- Settles O9: a record counts as entered when it is made and under its fate when it leaves. -/
theorem stepKeepsTheLaneCountersBalanced : Obligations.StepKeepsTheLaneCountersBalanced :=
  fun _ _ h hstep => counterInv.step h hstep

end Sys2Proof.Proofs.Counting
end

section
/-! PROOFS. The stackers' relations, and what an idle line holds, from what the single changes do to them. -/

namespace Sys2Proof.Proofs.Stacking

open Sys2Proof Sys2Proof.Machine Sys2Proof.Safety Sys2Proof.Proofs.Changes Sys2Proof.Proofs.Invariants
open Sys2Proof.Proofs.Keeping Sys2Proof.Proofs.Counting

/-! ## One stacker (R108 to R125) -/

theorem holdAt65535_le (n : Nat) : holdAt65535 n ≤ 65535 := by
  unfold holdAt65535
  split <;> omega

theorem overrideFor_fits (v : Byte) : overrideFor v = 0 ∨ targetFits (overrideFor v) := by
  have := v.isLt
  unfold overrideFor
  split
  · exact .inl rfl
  · right
    split
    · exact ⟨le_rfl, by omega⟩
    · exact ⟨by omega, by omega⟩

/-- R109: the stack that a piece opens takes the override where there is one, else the piece's target. -/
theorem openWith_fits {st : Stacker} {p : Piece} (hover : st.override = 0 ∨ targetFits st.override) (hp : targetFits p.target) :
    stackFits (st.openWith p) ∧ (st.openWith p).pieces = 1 := by
  have htarget : targetFits (st.openWith p).target := by
    simp only [Stacker.openWith]
    split
    · next hne => exact hover.resolve_left hne
    · exact hp
  refine ⟨⟨le_rfl, by simp [Stacker.openWith], ?_, htarget⟩, rfl⟩
  simp only [Stacker.openWith]
  split <;> simp

theorem add_fits {o : OpenStack} (a : Arrival) (h : stackFits o) (hroom : o.pieces < 65535) : stackFits (o.add a) := by
  obtain ⟨hone, -, hstrays, htarget⟩ := h
  refine ⟨Nat.le_succ_of_le hone, hroom, ?_, htarget⟩
  simp only [OpenStack.add]
  split <;> omega

/-- R116: the shelf's pieces, at most 3, open a stack below its target. -/
theorem released_fits {st : Stacker} (h : stackerFits st) (hnone : st.stack = none) (htimer : st.timer = none)
    (hpause : st.pausePending = false) : stackerFits st.released := by
  obtain ⟨-, -, -, hshelf, hpieces, hover, -, -, hunplaced⟩ := h
  unfold Stacker.released
  split
  · next hempty => simp_all [stackerFits]
  · next p rest hcons =>
    rw [hcons] at hshelf hpieces
    obtain ⟨⟨-, -, hstrays, htarget⟩, hone⟩ := openWith_fits (st := st) hover (hpieces p (by simp))
    have hcount : rest.countP (fun x => x.stray) ≤ rest.length := List.countP_le_length
    have hlen : rest.length + 1 ≤ 3 := hshelf
    have hlow := htarget.1
    refine ⟨?_, ?_, by simp, by simp, by simp, hover, by simp [htimer], by simp [hpause], hunplaced⟩
    · simp only [Option.mem_some_iff, forall_eq']
      exact ⟨by dsimp only; omega, by dsimp only; omega, by dsimp only; omega, htarget⟩
    · simp only [Option.mem_some_iff, forall_eq', and_true, true_imp_iff]
      omega

theorem stackerFits_move {A : Arrival → Prop} {runs : Bool} {cap : Nat} {st st' : Stacker}
    (hmove : StackerMove A runs cap st st') (hA : ∀ a, A a → targetFits a.target) (hcap : cap ≤ 3) (h : stackerFits st) :
    stackerFits st' := by
  have ⟨hstack, hcollecting, hclear, hshelf, hpieces, hover, htimer, hpause, hunplaced⟩ := h
  cases hmove with
  | opens a ha hphase hnone =>
    obtain ⟨hfits, hone⟩ := openWith_fits (st := st) (p := a.piece none) hover (hA a ha)
    refine ⟨by simpa using hfits, fun hc => ⟨?_, (hcollecting hc).2⟩, ?_, hshelf, hpieces, hover, htimer, ?_, hunplaced⟩
    · have := hfits.2.2.2.1
      simp only [Option.mem_some_iff, forall_eq']
      omega
    · rcases hphase with hphase | hphase <;> simp [hphase]
    · intro hp
      exact (hpause hp).imp_left fun hc => ⟨hc.1, rfl⟩
  | adds a o ho hphase =>
    have hfits : stackFits o := hstack o ho
    have hroom : o.pieces < 65535 := by
      rcases hphase with ⟨hc, -⟩ | ⟨-, hroom⟩
      · have := (hcollecting hc).1 o ho
        have := hfits.2.2.2.2
        omega
      · exact hroom
    refine ⟨by simpa using add_fits a hfits hroom, fun hc => ⟨?_, (hcollecting hc).2⟩, ?_, hshelf, hpieces, hover, htimer, ?_, hunplaced⟩
    · have hlt := (hcollecting hc).1 o ho
      have hne : o.pieces + 1 ≠ o.target := by
        rcases hphase with ⟨-, hne⟩ | ⟨hs, -⟩
        · exact hne
        · exact absurd (hc.symm.trans hs) (by simp)
      simp only [Option.mem_some_iff, forall_eq', OpenStack.add]
      omega
    · rcases hphase with ⟨hphase, -⟩ | ⟨hphase, -⟩ <;> simp [hphase]
    · intro hp
      exact (hpause hp).imp_left fun hc => ⟨hc.1, rfl⟩
  | closes _ hsome =>
    have hstopped : st.timer = none := by
      by_contra hrunning
      rw [hclear (.inr (.inl (htimer hrunning)))] at hsome
      simp at hsome
    exact ⟨by simp [Stacker.closed], by simp [Stacker.closed], fun _ => rfl, hshelf, hpieces, hover,
      fun hrunning => absurd hstopped hrunning, fun _ => .inr (.inl rfl), Nat.zero_le _⟩
  | shelves a ha hphase hroom =>
    refine ⟨hstack, fun hc => absurd hc hphase, hclear, ?_, ?_, hover, htimer, hpause, hunplaced⟩
    · simp only [Stacker.shelve, List.length_append, List.length_singleton]
      omega
    · exact List.forall_mem_append.mpr ⟨hpieces, List.forall_mem_singleton.mpr (hA a ha)⟩
  | unplaces n => exact ⟨hstack, hcollecting, hclear, hshelf, hpieces, hover, htimer, hpause, holdAt65535_le n⟩
  | stops =>
    unfold Stacker.stop
    split
    · exact h
    · exact ⟨hstack, by simp, by simp, hshelf, hpieces, hover, by simp, by simp, hunplaced⟩
  | lowers n _ hphase =>
    exact ⟨hstack, by simp, fun _ => hclear (.inl hphase), hshelf, hpieces, hover, fun _ => rfl,
      fun _ => .inr (.inr rfl), hunplaced⟩
  | discharges hphase =>
    have hnone := hclear (.inr (.inl hphase))
    simp only [Stacker.dischargeDone]
    split
    · exact ⟨hstack, by simp, fun _ => hnone, hshelf, hpieces, hover, by simp, by simp, hunplaced⟩
    · next hp =>
      exact released_fits (st := { st with timer := none })
        ⟨hstack, hcollecting, hclear, hshelf, hpieces, hover, by simp, hpause, hunplaced⟩ hnone rfl (by simpa using hp)
  | pauses =>
    unfold Stacker.pause
    split
    · next hphase =>
      split
      · next hsome =>
        exact ⟨hstack, hcollecting, hclear, hshelf, hpieces, hover, htimer, fun _ => .inl ⟨hphase, hsome⟩, hunplaced⟩
      · next hempty =>
        refine ⟨hstack, by simp, fun _ => by simpa using hempty, hshelf, hpieces, hover, ?_, ?_, hunplaced⟩
        · intro hrunning
          simp [htimer hrunning] at hphase
        · intro hp
          rcases hpause hp with ⟨-, hsome⟩ | hother | hother
          · exact absurd hsome hempty
          · simp [hother] at hphase
          · simp [hother] at hphase
    · next hphase =>
      exact ⟨hstack, hcollecting, hclear, hshelf, hpieces, hover, htimer, fun _ => .inr (.inl hphase), hunplaced⟩
    · next hphase =>
      exact ⟨hstack, hcollecting, hclear, hshelf, hpieces, hover, htimer, fun _ => .inr (.inr hphase), hunplaced⟩
    · exact h
    · exact h
  | resumes hphase =>
    refine released_fits h (hclear (.inr (.inr hphase))) ?_ ?_
    · by_contra hrunning
      simp [htimer hrunning] at hphase
    · by_contra hp
      simpa [hphase] using hpause (by simpa using hp)
  | targets v => exact ⟨hstack, hcollecting, hclear, hshelf, hpieces, overrideFor_fits v, htimer, hpause, hunplaced⟩
  | dumps hphase =>
    exact ⟨hstack, fun hc => ⟨(hcollecting hc).1, rfl⟩, hclear, Nat.zero_le _, by simp [Stacker.dumpShelf], hover, htimer, hpause,
      holdAt65535_le _⟩
  | clears hphase hnone =>
    refine ⟨hstack, ?_, by simp, Nat.zero_le _, by simp [Stacker.dumpShelf], hover, ?_, ?_, holdAt65535_le _⟩
    · exact fun _ => ⟨by simp [Stacker.dumpShelf, hnone], rfl⟩
    · intro hrunning
      simp [htimer hrunning] at hphase
    · intro hp
      simpa [hphase] using hpause hp

/-- R7: a tick leaves a timer stopped or running. -/
theorem stackerFits_tick {st : Stacker} (h : stackerFits st) : stackerFits { st with timer := tickTimer st.timer } := by
  obtain ⟨hstack, hcollecting, hclear, hshelf, hpieces, hover, htimer, hpause, hunplaced⟩ := h
  exact ⟨hstack, hcollecting, hclear, hshelf, hpieces, hover, fun hrunning => htimer (by simpa [tickTimer] using hrunning), hpause,
    hunplaced⟩

theorem stackerFits_cold : stackerFits .cold := by simp [stackerFits, Stacker.cold]

/-! ## The targets and capacities that the stackers draw on -/

/-- R31: a record is bound with the target of its article row, or with 4. -/
theorem boundRecord_target {s : State} (h : ∀ a : Article, ∀ row ∈ s.setup.articles[a], targetFits row.target) (k : Lane)
    (p : Pos) (b : Bound) : targetFits (s.boundRecord k p b).target := by
  simp only [State.boundRecord, State.copyRow]
  split
  · exact ⟨le_rfl, by simp⟩
  · next row hrow => exact h _ row hrow

/-- R147: the shelf capacity in force is at most 3. -/
theorem shelfCap_le {s : State} (h : ∀ m ∈ s.setup.committed, ∀ k : Lane, (m.diverters[k]).cap ≤ 3) (k : Lane) :
    s.shelfCap k ≤ 3 := by
  unfold State.shelfCap State.map
  cases hm : s.setup.committed with
  | none => simp [StationMap.unloaded]
  | some m => exact h m hm k

/-- R110: the pieces that come have a target within range. -/
theorem comes_fits {a : Arrival} (h : Comes StackerInv a) : targetFits a.target := by
  rcases h with rfl | ⟨s, t, r, ⟨-, hrecords, -⟩, hr, rfl⟩
  · exact ⟨by simp [Arrival.stray], by simp [Arrival.stray]⟩
  · exact hrecords t r hr

theorem stackerInv_cold (na : BitVec 5) (s : State) : StackerInv (coldState na s) := by
  refine ⟨fun k => ?_, fun t => ?_, ?_, ?_, ?_⟩
  · simpa [coldState, State.reset] using stackerFits_cold
  · change ∀ r ∈ State.reset.record t, _
    simp [record_reset]
  · simp [coldState, State.reset, Setup.cold]
  · simp [coldState, State.reset, Setup.cold, StationMap.unloaded]
  · simp [coldState, State.reset, Setup.cold]

theorem stackerInv : Invariant StackerInv (fun _ => True) where
  rewrites {s t r r'} h hr _ htarget _ := by
    obtain ⟨hfits, hrecords, hrest⟩ := h
    refine ⟨hfits, fun t' => ?_, hrest⟩
    rw [record_setRecord]
    exact forall_record_ite hrecords (by simpa [htarget] using hrecords t r hr) t'
  retires {s t r} f h _ := by
    obtain ⟨hfits, hrecords, hrest⟩ := h
    refine ⟨hfits, fun t' => ?_, hrest⟩
    rw [record_retired]
    exact forall_record_ite hrecords (by simp) t'
  enters {s} k p b t h _ _ := by
    obtain ⟨hfits, hrecords, harticles, hcaps⟩ := h
    refine ⟨hfits, fun t' => ?_, harticles, hcaps⟩
    rw [record_entered]
    exact forall_record_ite hrecords (by simpa using boundRecord_target harticles k p b) t'
  stackers {s k st} h hmove := by
    obtain ⟨hfits, hrecords, harticles, hstaging, hcommitted⟩ := h
    have hnew := stackerFits_move hmove (fun a => comes_fits) (shelfCap_le hcommitted k) (hfits k)
    refine ⟨fun k' => ?_, hrecords, harticles, hstaging, hcommitted⟩
    simp only [setStacker_eq, setStackers_stackers, Fin.getElem_fin, getElem_upd]
    split
    · exact hnew
    · exact hfits k'
  ticks {s} h := by
    obtain ⟨hfits, hrest⟩ := h
    refine ⟨fun k => ?_, hrest⟩
    simpa [State.tick] using stackerFits_tick (hfits k)
  stages {s m} h _ hcaps := by
    obtain ⟨hfits, hrecords, harticles, hstaging, hcommitted⟩ := h
    refine ⟨hfits, hrecords, harticles, fun k => ?_, hcommitted⟩
    rcases hcaps k with e | hle
    · exact (congrArg Diverter.cap e).trans_le (hstaging k)
    · exact hle
  commits {s} h _ := by
    obtain ⟨hfits, hrecords, -, hstaging, -⟩ := h
    exact ⟨hfits, hrecords, by simp [State.commit, Setup.commit, Setup.cold], hstaging,
      by simpa [State.commit, Setup.commit] using hstaging⟩
  loads {s x} h _ hload := by
    obtain ⟨hfits, hrecords, harticles, hstaging, hcommitted⟩ := h
    refine ⟨hfits, hrecords, fun a => ?_, ?_, ?_⟩
    · rcases hload.articles a with e | ⟨-, hnew⟩
      · exact fun row hrow => harticles a row (e ▸ hrow)
      · exact hnew
    · simpa [hload.staging] using hstaging
    · simpa [hload.committed] using hcommitted
  resets {s u} h hreset _ _ := by
    obtain ⟨hfits, -, hsetup⟩ := h
    obtain ⟨-, hrecords, -, -, -, -, hstackers, -, -, esetup, -⟩ := hreset
    refine ⟨fun k => ?_, fun t => by simp [hrecords t], esetup ▸ hsetup⟩
    obtain ⟨-, -, -, -, -, hover, -⟩ := hfits k
    rw [(hstackers k).2]
    refine ⟨by simp, by simp, by simp, by simp, by simp, hover, by simp, by simp, ?_⟩
    split
    · exact Nat.zero_le _
    · exact Nat.min_le_left ..
  colds {s} na _ := stackerInv_cold na s
  brings _ _ _ := trivial

/-- Settles O10: each change of a stacker keeps the relations within its record, and the targets and capacities it draws
on come within range from the tables. -/
theorem stepKeepsTheStackers : Obligations.StepKeepsTheStackers := fun _ _ h hstep => stackerInv.step h hstep

/-! ## The idle line (R58, R80, R117, R149, R158) -/

/-- R117: a stacker that discharges. -/
def Discharging (p : Phase) : Prop := p = .offered ∨ p = .lowering

/-- R111, R117: a stacker that does not discharge comes to discharge by a close alone, on a line that runs. -/
theorem discharging_move {A : Arrival → Prop} {runs : Bool} {cap : Nat} {st st' : Stacker}
    (hmove : StackerMove A runs cap st st') (hruns : runs = false) (h : ¬Discharging st.phase) : ¬Discharging st'.phase := by
  cases hmove with
  | closes hrun => simp [hruns] at hrun
  | lowers _ hrun => simp [hruns] at hrun
  | opens | adds | shelves | unplaces | targets | dumps => exact h
  | discharges hphase => exact absurd (.inr hphase) h
  | clears => simp [Discharging]
  | stops =>
    unfold Stacker.stop
    split
    · exact h
    · simp [Discharging]
  | pauses =>
    unfold Stacker.pause
    repeat' split
    all_goals first
      | exact h
      | simp [Discharging]
  | resumes =>
    unfold Stacker.released
    split <;> simp [Discharging]

/-- A line that holds no piece. -/
def HoldsNothing (s : State) : Prop :=
  (∀ t : Tag, s.record t = none) ∧ (∀ k : Lane, s.queues[k] = []) ∧ s.sched.entries = []
    ∧ ∀ k : Lane, ¬Discharging (s.stackers[k]).phase

/-- R149, R151: a map is in force, and a Lane Plan with it, exactly outside INIT. -/
def InForce (s : State) : Prop :=
  (s.line = .init ↔ s.setup.committed = none) ∧ (s.setup.committed = none ↔ s.setup.lanes = none)

/-- R80: every fire entry has a live owner. -/
def Owned (s : State) : Prop := ∀ e ∈ s.sched.entries, (s.record e.tag).isSome

theorem idleInv_iff (s : State) : IdleInv s ↔ (s.line.runs = false → HoldsNothing s) ∧ Owned s ∧ InForce s := by
  simp only [IdleInv, HoldsNothing, Owned, InForce, Discharging, not_or, ne_eq]

/-- A line with a live record runs. -/
theorem runs_of_live {s : State} {t : Tag} (h : s.line.runs = false → HoldsNothing s) (ht : (s.record t).isSome) :
    s.line.runs = true := by
  by_contra hidle
  simp [(h (by simpa using hidle)).1 t] at ht

/-- An idle line with other records, entries, queues and stackers, on which nothing was or is. -/
theorem idleInv_of_live {s u : State} {t : Tag} (h : IdleInv s) (ht : (s.record t).isSome) (hline : u.line = s.line)
    (hsetup : u.setup = s.setup) (howned : Owned s → Owned u) : IdleInv u := by
  obtain ⟨hidle, hown, hforce⟩ := (idleInv_iff s).mp h
  refine (idleInv_iff u).mpr ⟨fun hstill => ?_, howned hown, ?_⟩
  · rw [hline, runs_of_live hidle ht] at hstill
    simp at hstill
  · unfold InForce
    rwa [hline, hsetup]

theorem idleInv_cold (na : BitVec 5) (s : State) : IdleInv (coldState na s) := by
  refine (idleInv_iff _).mpr ⟨fun _ => ⟨record_reset, fun k => ?_, rfl, fun k => ?_⟩, ?_, ?_⟩
  · simp [coldState, State.reset]
  · simp [coldState, State.reset, Stacker.cold, Discharging]
  · simp [Owned, coldState, State.reset, Schedule.cold]
  · simp [InForce, coldState, State.reset, Setup.cold]

theorem idleInv : Invariant IdleInv (fun _ => True) where
  queues {s} k q h hq := by
    obtain ⟨hidle, hown, hforce⟩ := (idleInv_iff s).mp h
    refine (idleInv_iff _).mpr ⟨fun hstill => ?_, hown, hforce⟩
    obtain ⟨hrecords, hqueues, hentries, hphases⟩ := hidle hstill
    refine ⟨hrecords, fun j => ?_, hentries, hphases⟩
    simp only [setQueue_eq, setQueues_queues, Fin.getElem_fin, getElem_upd]
    split
    · rcases hq with hshort | ⟨hruns, -⟩
      · rw [hqueues k] at hshort
        simpa using hshort
      · exact absurd (hruns.symm.trans hstill) (by simp)
    · exact hqueues j
  books {s e} h ht := by
    refine idleInv_of_live h ht rfl rfl fun hown x hx => ?_
    rcases List.mem_cons.mp ((insertEntry_perm s.position e s.sched.entries).mem_iff.mp hx) with rfl | hx
    · exact ht
    · exact hown x hx
  unbooks {s es} h hsub := by
    obtain ⟨hidle, hown, hforce⟩ := (idleInv_iff s).mp h
    refine (idleInv_iff _).mpr ⟨fun hstill => ?_, fun e he => hown e (hsub he), hforce⟩
    obtain ⟨hrecords, hqueues, hentries, hphases⟩ := hidle hstill
    rw [hentries] at hsub
    exact ⟨hrecords, hqueues, List.subset_nil.mp hsub, hphases⟩
  rewrites {s t r r'} h hr _ _ _ := by
    refine idleInv_of_live h (t := t) (by simp [hr]) rfl rfl fun hown e he => ?_
    rw [record_setRecord]
    split
    · rfl
    · exact hown e he
  retires {s t r} f h hr := by
    refine idleInv_of_live h (t := t) (by simp [hr]) rfl rfl fun hown e he => ?_
    obtain ⟨he, hother⟩ := List.mem_filter.mp he
    rw [record_retired, if_neg (Ne.symm (by simpa using hother))]
    exact hown e he
  enters {s} k p b t h hruns ht := by
    obtain ⟨-, hown, hforce⟩ := (idleInv_iff s).mp h
    refine (idleInv_iff _).mpr ⟨fun hstill => absurd (hruns.symm.trans hstill) (by simp), fun e he => ?_, hforce⟩
    rw [record_entered]
    split
    · rfl
    · exact hown e he
  stackers {s k st} h hmove := by
    obtain ⟨hidle, hown, hforce⟩ := (idleInv_iff s).mp h
    refine (idleInv_iff _).mpr ⟨fun hstill => ?_, hown, hforce⟩
    obtain ⟨hrecords, hqueues, hentries, hphases⟩ := hidle hstill
    refine ⟨hrecords, hqueues, hentries, fun j => ?_⟩
    simp only [setStacker_eq, setStackers_stackers, Fin.getElem_fin, getElem_upd]
    split
    · exact discharging_move hmove hstill (hphases k)
    · exact hphases j
  ticks {s} h := by
    obtain ⟨hidle, hown, hforce⟩ := (idleInv_iff s).mp h
    refine (idleInv_iff _).mpr ⟨fun hstill => ?_, hown, hforce⟩
    obtain ⟨hrecords, hqueues, hentries, hphases⟩ := hidle hstill
    exact ⟨hrecords, hqueues, hentries, fun k => by simpa [State.tick] using hphases k⟩
  lines {s x} h hbefore hafter hemptied := by
    obtain ⟨hidle, hown, hforce⟩ := (idleInv_iff s).mp h
    refine (idleInv_iff _).mpr ⟨fun hstill => ?_, hown, ?_⟩
    · rcases hemptied with hruns | hwas | ⟨hrecords, hqueues, hphases⟩
      · exact absurd (hruns.symm.trans hstill) (by simp)
      · exact hidle hwas
      · refine ⟨hrecords, hqueues, List.eq_nil_iff_forall_not_mem.mpr fun e he => ?_, fun k => ?_⟩
        · simpa [hrecords e.tag] using hown e he
        · exact not_or.mpr (hphases k)
    · have hcommitted : s.setup.committed ≠ none := fun hc => hbefore (hforce.1.mpr hc)
      exact ⟨iff_of_false hafter hcommitted, hforce.2⟩
  commits {s} h hinit := by
    obtain ⟨hidle, hown, -⟩ := (idleInv_iff s).mp h
    refine (idleInv_iff _).mpr ⟨fun _ => hidle (by simp [hinit, LineState.runs]), hown, ?_⟩
    simp [InForce, State.commit, Setup.commit]
  loads {s x} h hline hload := by
    obtain ⟨hidle, hown, hforce⟩ := (idleInv_iff s).mp h
    have hcommitted : s.setup.committed ≠ none := fun hc => hline (hforce.1.mpr hc)
    have hlanes : x.lanes ≠ none := by
      rcases hload.lanes with e | hsome
      · rw [e]
        exact fun hl => hcommitted (hforce.2.mpr hl)
      · exact Option.isSome_iff_ne_none.mp hsome
    refine (idleInv_iff _).mpr ⟨hidle, hown, ?_⟩
    simp only [InForce, setSetup_setup, setSetup_line, hload.committed]
    exact ⟨hforce.1, iff_of_false hcommitted hlanes⟩
  resets {s u} h hreset _ _ := by
    obtain ⟨-, -, hforce⟩ := (idleInv_iff s).mp h
    obtain ⟨hline, hrecords, -, -, hentries, -, hlanes, -, -, hsetup, -⟩ := hreset
    refine (idleInv_iff u).mpr ⟨fun _ => ⟨hrecords, fun k => (hlanes k).1, hentries, fun k => ?_⟩, ?_, ?_⟩
    · simp [(hlanes k).2, Discharging]
    · simp [Owned, hentries]
    · unfold InForce
      rw [hsetup, hline]
      refine ⟨?_, hforce.2⟩
      cases hc : s.setup.committed <;> simp [resetLine, hc]
  colds {s} na _ := idleInv_cold na s
  brings _ _ _ := trivial

/-- Settles O11: a line that leaves RUN and DRAIN has been emptied, and off the run nothing enters, is booked or closes. -/
theorem stepKeepsTheIdleLineEmpty : Obligations.StepKeepsTheIdleLineEmpty := fun _ _ h hstep => idleInv.step h hstep

/-! ## Reset -/

theorem coldState_reset : coldState 4 State.reset = State.reset := rfl

/-- Settles O5: the state after reset is one that COLD_RESET leaves, with no command waiting. -/
theorem resetMeetsTheInvariants : Obligations.ResetMeetsTheInvariants := by
  unfold Obligations.ResetMeetsTheInvariants
  rw [← coldState_reset]
  exact ⟨boundsInv_cold 4 _, frameInv_cold 4 (by simp [State.reset]), tallyFits_cold, counterInv_cold 4 _,
    stackerInv_cold 4 _, idleInv_cold 4 _, sensorInv_cold 4 _⟩

end Sys2Proof.Proofs.Stacking
end

section
/-! PROOFS. What no command changes after commit, and the step itself. -/

namespace Sys2Proof.Proofs.Protection

open Sys2Proof Sys2Proof.Machine Sys2Proof.Safety Sys2Proof.Laws Sys2Proof.Proofs.Changes Sys2Proof.Proofs.Belt

/-! ## The committed map and the locked entries (R149, R155) -/

/-- R149, R155: the tables `y` keep of `x` the committed map, the locked entries and the locks. -/
structure Protects (x y : Setup) : Prop where
  committed : y.committed = x.committed
  articles : ∀ a : Article, x.articleLocks[a] = true → y.articleLocks[a] = true ∧ y.articles[a] = x.articles[a]
  plans : ∀ n : PlanNo, x.planLocks[n] = true → y.planLocks[n] = true ∧ y.plans[n] = x.plans[n]

theorem Protects.refl (x : Setup) : Protects x x := ⟨rfl, fun _ h => ⟨h, rfl⟩, fun _ h => ⟨h, rfl⟩⟩

/-- R155: a load writes no locked entry and clears no lock. -/
theorem Protects.load {x y z : Setup} (h : Protects x y) (hload : Loaded y z) : Protects x z where
  committed := hload.committed.trans h.committed
  articles a hlock := by
    obtain ⟨hlock', e⟩ := h.articles a hlock
    refine ⟨hload.articleLocks a hlock', ?_⟩
    rcases hload.articles a with e' | ⟨hfree, -⟩
    · exact e'.trans e
    · exact absurd (hlock'.symm.trans hfree) (by simp)
  plans n hlock := by
    obtain ⟨hlock', e⟩ := h.plans n hlock
    refine ⟨hload.planLocks n hlock', ?_⟩
    rcases hload.plans n with e' | ⟨hfree, -⟩
    · exact e'.trans e
    · exact absurd (hlock'.symm.trans hfree) (by simp)

/-- After commit every change but COLD_RESET protects the tables and stays out of INIT. -/
theorem protects_kept {x : Setup} (hcommitted : x.committed ≠ none) :
    KeptByAll (fun v => Protects x v.setup ∧ v.line ≠ .init) (fun _ => True) where
  lines h _ hafter _ := ⟨h.1, hafter⟩
  stages h hinit _ := absurd hinit h.2
  commits h hinit := absurd hinit h.2
  loads h hline hload := ⟨h.1.load hload, hline⟩
  resets {v u} h hreset _ _ := by
    obtain ⟨hline, -, -, -, -, -, -, -, -, hsetup, -⟩ := hreset
    have hmap : v.setup.committed ≠ none := by
      rw [h.1.committed]
      exact hcommitted
    refine ⟨hsetup ▸ h.1, ?_⟩
    rw [hline, resetLine, if_pos (Option.isSome_iff_ne_none.mpr hmap)]
    simp

/-- Settles O13: a staging load and a commit are taken in INIT alone, and a load to a working table spares what is locked. -/
theorem committedMapAndLockedEntriesStay : Obligations.CommittedMapAndLockedEntriesStay := by
  intro c s u hcold hline hexec hcommitted
  obtain ⟨v, hv, hprotects, hstays⟩ := (protects_kept hcommitted).exec c hcold (fun _ _ => trivial)
    (And.intro (Protects.refl s.setup) hline)
  cases hv.symm.trans hexec
  exact ⟨hprotects.committed, hstays, hprotects.articles, hprotects.plans⟩

/-! ## The step (entries 3 and 4) and the cold values -/

theorem step_of_pending {s : State} {c : Instr} {rest : List Instr} (h : s.pending = c :: rest) :
    step s = exec c { s with pending := rest } := by
  simp only [step, h]

theorem step_of_empty {s : State} (h : s.pending = []) : step s = .next s.idle := by
  simp only [step, h]

/-- Settles O1. -/
theorem stepTakesTheFrontCommand : Obligations.StepTakesTheFrontCommand := fun _ _ _ h => step_of_pending h

/-- Settles O2: with nothing due the events of an empty queue change nothing, and what is left of the step is the tick. -/
theorem emptyQueueStepTicksTheTimers : Obligations.EmptyQueueStepTicksTheTimers := by
  intro s hrst hpending hquiet
  rw [step_of_empty hpending, State.idle, if_pos hrst, settle_quiet hquiet]
  rfl

/-- Settles O4: each block starts from its cold value. -/
theorem resetLeavesTheColdValues : Obligations.ResetLeavesTheColdValues := by
  have hlevel : ∀ o : OutId, State.reset.outLevel o = false := by decide
  have hpins : ∀ k : Lane, State.reset.srdyLevel k = false ∧ State.reset.holdLevel k = true := by decide
  refine ⟨rfl, rfl, rfl, rfl, rfl, rfl, fun k => ?_, Keeping.record_reset, rfl, rfl, fun o => ?_, fun k => ?_, rfl, rfl,
    fun i => ?_, fun o => ?_, fun k => ?_, rfl, rfl, fun a => ?_, fun n => ?_, fun i => ?_, rfl⟩
  · simp [State.reset, Tracking.cold]
  · refine ⟨?_, ?_, ?_, ?_, ?_, hlevel o⟩ <;>
      simp [State.reset, OutputRecord.cold, State.busyUntil, Schedule.cold, State.position, PositionUnit.cold]
  · refine ⟨?_, hpins k⟩
    simp [State.reset, Stacker.cold]
  all_goals simp [State.reset, Setup.cold, StationMap.unloaded]

end Sys2Proof.Proofs.Protection
end

section
/-! PROOFS. A confirmed piece that is diverted or goes to its stacker, the waits on the position, and the fires but the
diverter's close. -/

namespace Sys2Proof.Proofs.Waits

open Sys2Proof Sys2Proof.Machine Sys2Proof.Safety Sys2Proof.Laws Sys2Proof.Proofs.Changes Sys2Proof.Proofs.Belt

/-! ## A piece goes to its diverter (R41, R42) -/

/-- R41: a record with a reason goes to its diverter, which closes behind its tail. -/
theorem divertConfirmed_eq {s : State} {k : Lane} {o : OutId} (h : (s.map.diverters[k]).output = some o) (t : Tag)
    (r : ItemRecord) (m : Pos) :
    s.divertConfirmed k t r m
      = (s.setRecord t { r with state := .diverting }).insertEntry ⟨s.closeAt k m, .divertClose, o, t⟩ :=
  bookDiverter_some (by exact h) ..

/-- R42: a record of a wrong length goes to its diverter over its whole span. -/
theorem divertRecord_eq {s : State} {k : Lane} {o : OutId} (h : (s.map.diverters[k]).output = some o) (t : Tag)
    (r : ItemRecord) (m : Pos) :
    s.divertRecord k t r m = ((s.setRecord t { r with state := .diverting }).insertEntry
      ⟨s.openAt k r.lead, .divertOpen, o, t⟩).insertEntry ⟨s.closeAt k m, .divertClose, o, t⟩ := by
  have hopen : (s.setRecord t { r with state := .diverting }).bookDiverter k t .divertOpen (s.openAt k r.lead)
      = (s.setRecord t { r with state := .diverting }).insertEntry ⟨s.openAt k r.lead, .divertOpen, o, t⟩ :=
    bookDiverter_some (by exact h) ..
  simp only [State.divertRecord, hopen]
  exact bookDiverter_some (by exact h) ..

section
variable {s : State} {k : Lane} {t : Tag} {r : ItemRecord} {n : Nat} {m : Pos}

/-! ## The cases of a confirmation (R40 to R43) -/

theorem settleConfirmed_reason (h : r.reason ≠ none) : s.settleConfirmed k t r n m = s.divertConfirmed k t r m :=
  if_pos (Option.isSome_iff_ne_none.mpr h)

theorem settleConfirmed_overlong (h : r.reason = none) (hn : 4095 < n) : s.settleConfirmed k t r n m
    = (s.bookDiverter k t .divertOpen (s.lateOpenAt k r.lead)).divertConfirmed k t { r with reason := some .oversize } m := by
  simp only [State.settleConfirmed, h, Option.isSome_none, Bool.false_eq_true, if_false, hn, if_true]

theorem settleConfirmed_short (h : r.reason = none) (hn : n ≤ 4095) (hmin : n < r.min) : s.settleConfirmed k t r n m
    = s.divertRecord k t { r with reason := some .undersize, steps := cancelEvery r.steps } m := by
  simp only [State.settleConfirmed, h, Option.isSome_none, Bool.false_eq_true, if_false, Nat.not_lt.mpr hn, hmin, if_true]

theorem settleConfirmed_long (h : r.reason = none) (hn : n ≤ 4095) (hmin : r.min ≤ n) (hmax : r.max < n) :
    s.settleConfirmed k t r n m
      = s.divertRecord k t { r with reason := some .oversize, steps := cancelEvery r.steps } m := by
  simp only [State.settleConfirmed, h, Option.isSome_none, Bool.false_eq_true, if_false, Nat.not_lt.mpr hn,
    Nat.not_lt.mpr hmin, hmax, if_true]

theorem settleConfirmed_unfolded (h : r.reason = none) (hn : n ≤ 4095) (hmin : r.min ≤ n) (hmax : n ≤ r.max)
    (hroute : r.route = .flat ∨ (r.route = .stack ∧ r.steps = [])) : s.settleConfirmed k t r n m = s.toStack k t r := by
  have hunfolded : (decide (r.route = .flat) || r.steps.isEmpty) = true := by
    rcases hroute with hflat | ⟨-, hnil⟩ <;> simp [*]
  simp only [State.settleConfirmed, h, Option.isSome_none, Bool.false_eq_true, if_false, Nat.not_lt.mpr hn,
    Nat.not_lt.mpr hmin, Nat.not_lt.mpr hmax, hunfolded, if_true]

end

/-- Settles O19: by the reason that the record carries, and without one by its length. -/
theorem confirmationDivertsThePiece : Obligations.ConfirmationDivertsThePiece := by
  intro s k t r m o hrst hqual hruns henabled holdest hr hout
  dsimp only
  rw [confirm_ls hrst hqual hruns henabled holdest hr]
  have hout' : ((s.setQual (.ls k) .clear).map.diverters[k]).output = some o := hout
  refine ⟨fun hreason => ?_, fun hreason hn => ?_, fun hreason hn hmin => ?_, fun hreason hn hmin hmax => ?_⟩
  · rw [settleConfirmed_reason (r := r.confirm m) hreason, divertConfirmed_eq hout']
    rfl
  · rw [settleConfirmed_overlong (r := r.confirm m) hreason hn, bookDiverter_some hout',
      divertConfirmed_eq (o := o) (by exact hout')]
    rfl
  · rw [settleConfirmed_short (r := r.confirm m) hreason hn hmin, divertRecord_eq hout']
    rfl
  · rw [settleConfirmed_long (r := r.confirm m) hreason hn hmin hmax, divertRecord_eq hout']
    rfl

/-- Settles O20: the piece was ENTERING, so that no older record's jam wait passes to it. -/
theorem confirmationSendsAnUnfoldedPieceToStack : Obligations.ConfirmationSendsAnUnfoldedPieceToStack := by
  intro s k t r m hrst hqual hruns henabled holdest hr hreason hmin hmax hn hroute hahead
  obtain ⟨r0, hr0, -, hentering⟩ := oldest_some holdest
  have hr0' : r0 = r := by simpa using hr0.symm.trans hr
  have hlen : (r.confirm m).len = some (wrapDist r.lead m) := if_pos (by omega)
  rw [confirm_ls hrst hqual hruns henabled holdest hr,
    settleConfirmed_unfolded (r := r.confirm m) hreason hn hmin hmax hroute,
    toStack_eq (r := r.confirm m) (r0 := r) (s := s.setQual (.ls k) .clear) hr (by simp [← hr0', hentering]) hahead]
  simp only [ItemRecord.confirm] at hlen ⊢
  rw [hlen]
  rfl

/-! ## Expiry and the overlength wait (R21, R44) -/

/-- Settles O25. -/
theorem expiryRemovesTheDueHeads : Obligations.ExpiryRemovesTheDueHeads := by
  intro s k due rest hrst hqueue hdue hrest
  have hall : ∀ e ∈ due, decide (s.expiryOf e = s.position) = true := fun e he => decide_eq_true (hdue e he)
  have hhead : rest.takeWhile (fun e => decide (s.expiryOf e = s.position)) = []
      ∧ rest.dropWhile (fun e => decide (s.expiryOf e = s.position)) = rest := by
    cases rest with
    | nil => exact ⟨rfl, rfl⟩
    | cons e rest => simp [hrest e rfl]
  have htake : s.expiredHeads s.queues[k] = due := by
    rw [State.expiredHeads, hqueue, List.takeWhile_append_of_pos hall, hhead.1, List.append_nil]
  have hdrop : (s.queues[k]).dropWhile (fun e => decide (s.expiryOf e = s.position)) = rest := by
    rw [hqueue, List.dropWhile_append_of_pos hall, hhead.2]
  simp only [exec, execAnnounceExpiry, whenUp_high hrst, State.expireHeads]
  rw [htake, hdrop, emitLosts_eq]
  congr 2

/-- Settles O26. -/
theorem overlengthWaitDecides : Obligations.OverlengthWaitDecides := by
  intro s t r o hrst hr hwait hout
  simp only [exec, execOverlengthWait, whenUp_high hrst, overlength_met hr hwait]
  refine ⟨fun hcovered hreason => ?_, fun hnot => ?_⟩
  · rw [meetOverlength_covered ⟨hcovered, by simp [hreason]⟩]
    exact congrArg Host.Outcome.next (bookDiverter_some (by exact hout) ..)
  · rw [meetOverlength_else]
    rintro ⟨hcovered, hreason⟩
    rcases hnot with hnot | hnot
    · exact hnot hcovered
    · exact hnot (by simpa using hreason)

/-! ## Fires (R45, R73, R82, R84, R97) -/

/-- R82: the entry that fires is the record's own, of the kind asked for. -/
theorem dueEntry_some {s : State} {t : Tag} {kind : FireKind} {e : FireEntry} (h : s.dueEntry t kind = some e) :
    e.tag = t ∧ e.kind = kind := by
  have := List.find?_some h
  simp only [decide_eq_true_eq] at this
  exact ⟨this.1, this.2.1⟩

theorem fireDue_some {s : State} {t : Tag} {kind : FireKind} {e : FireEntry} (h : s.dueEntry t kind = some e) :
    s.fireDue t kind = s.fire e := by
  simp only [State.fireDue, h]

/-- R45, R73: the record that a FOLD fire leaves, of one that has been computed. -/
theorem fireStep_computed (m : StationMap) {r : ItemRecord} (j : StepNo) {x : FoldStep} {d n : Nat} {f : Pos}
    (hd : x.d = some d) (hf : x.fire = some f) (hn : r.curLen = some n) : r.fireStep m j x = { r with
      steps := r.steps.set j.1 { x with status := .fired }
      headRef := minus f (m.stations[x.station]).distance
      curLen := some (max d (n - d)) } := by
  simp [ItemRecord.fireStep, hd, hf, hn]

/-- Settles O24: the shot, the busy-until and the schedule first, then the record, by whether a step is left. -/
theorem foldFireMovesTheRecordOn : Obligations.FoldFireMovesTheRecordOn := by
  intro s t j e r x d n f hrst hdue hr hfolding hx hd hf hn
  dsimp only
  obtain ⟨htag, hkind⟩ := dueEntry_some hdue
  set s' : State := { s with
    outs := upd s.outs e.out { s.outs[e.out] with timer := some (s.outs[e.out]).shot }
    sched := ⟨s.sched.entries.erase e, upd s.sched.busy e.out (some (plus s.position (s.map.busySpan e.out)))⟩ } with hs'
  set r' : ItemRecord := { r with
    steps := r.steps.set j.1 { x with status := .fired }
    headRef := minus f (s.map.stations[x.station]).distance
    curLen := some (max d (n - d)) } with hr'
  have hstep : r.fireStep s'.map j x = r' := fireStep_computed _ j hd hf hn
  have hexec : exec (.foldFire t j) s = .next (s'.stepFired t r') := by
    have hrecord : s'.record t = some r := hr
    have hfire : s'.fireRecord t j = s'.stepFired t r' := by
      simp only [State.fireRecord, hrecord, hx, if_pos hfolding, hstep]
    rw [← hfire, ← htag]
    simp only [exec, execFoldFire, whenUp_high hrst, htag, fireDue_some hdue, State.fire, hkind]
    exact congrArg (fun tag => Host.Outcome.next (s'.fireRecord tag j)) htag
  rw [hexec, State.stepFired]
  refine ⟨fun hpending => ?_, fun hdone hahead => ?_⟩
  · rw [if_pos (by simpa using hpending)]
  · rw [if_neg (by simpa using hdone)]
    exact congrArg Host.Outcome.next
      (toStack_eq (s := s') (r0 := r) hr (by simp [hfolding]) hahead)

/-- Settles O29. -/
theorem openFireBusyEndAndShotEnd : Obligations.OpenFireBusyEndAndShotEnd := by
  intro s hrst
  refine ⟨fun t e hdue => ?_, fun o hbusy => ?_, fun o htimer => ?_, fun o htimer => ?_⟩
  · simp only [exec, execDivertOpenFire, whenUp_high hrst, fireDue_some hdue, State.fire, (dueEntry_some hdue).2]
    rfl
  · simp only [exec, execBusyUntilReached, whenUp_high hrst, State.busyReached, if_pos hbusy]
    rfl
  · simp only [exec, execShotTimerExpiry, whenUp_high hrst, State.expireShot, if_pos htimer]
    rfl
  · simp only [exec, execShotTimerExpiry, whenUp_high hrst, expireShot_none htimer]

end Sys2Proof.Proofs.Waits
end

section
/-! PROOFS. Sensor edges: the record that a leading edge makes, the edges that reach no record, and the overrun. -/

namespace Sys2Proof.Proofs.Edges

open Sys2Proof Sys2Proof.Machine Sys2Proof.Safety Sys2Proof.Laws Sys2Proof.Proofs.Changes Sys2Proof.Proofs.Belt
open Sys2Proof.Proofs.Keeping Sys2Proof.Proofs.Counting Sys2Proof.Proofs.Waits

/-- The state with the input of a sensor risen and its qualifier COVERED (R9). -/
def covered (s : State) (x : Sensor) : State := (s.setPin x true).setQual x .covered

/-- What a rise and its qualifier leave. -/
@[simp] theorem covered_frame (s : State) (x : Sensor) :
    (covered s x).pending = s.pending ∧ (covered s x).node = s.node ∧ (covered s x).line = s.line ∧ (covered s x).loss = s.loss
      ∧ (covered s x).queues = s.queues ∧ (covered s x).track = s.track ∧ (covered s x).sched = s.sched
      ∧ (covered s x).outs = s.outs ∧ (covered s x).stackers = s.stackers ∧ (covered s x).tally = s.tally
      ∧ (covered s x).setup = s.setup ∧ (covered s x).link = s.link ∧ (covered s x).freeIndex = s.freeIndex := by
  cases x <;> simp [covered]

@[simp] theorem position_covered (s : State) (x : Sensor) : (covered s x).position = s.position := by
  cases x <;> rfl

/-! ## A leading edge makes a record (R9, R23, R37) -/

/-- R22: an expiry moves the queue of its own lane alone. -/
theorem expireHeads_other {s : State} {k k' : Lane} (h : k' ≠ k) : (s.expireHeads k).queues[k'] = s.queues[k'] := by
  simp [State.expireHeads, getElem_upd, Fin.val_ne_of_ne (Ne.symm h)]

section
variable (s : State) (k : Lane) (p : Pos) (t : Tag)

/-- R24 to R32: the record that a leading edge makes. -/
def edgeRecord : ItemRecord := s.boundRecord k p (bindQueue s.queues[k])

theorem makeRecord_track :
    (s.makeRecord k p t).track = ((s.addRecord t (edgeRecord s k p)).count k .entered).track := by
  rw [makeRecord_eq]
  simp [edgeRecord]

/-- R33: a DIVERT_OPEN is booked exactly where the record carries a reason. -/
theorem makeRecord_sched : (s.makeRecord k p t).sched = (s.bookBound k t (edgeRecord s k p)).sched := by
  rw [makeRecord_eq]
  simp only [expireHeads_frame, setQueue_eq, setQueues_sched, State.bookBound, bookDiverter_eq, edgeRecord]
  split <;> rfl

theorem makeRecord_queues {k' : Lane} (h : k' ≠ k) : (s.makeRecord k p t).queues[k'] = s.queues[k'] := by
  rw [makeRecord_eq, expireHeads_other h]
  simp [getElem_upd, Fin.val_ne_of_ne (Ne.symm h), State.count, State.addRecord]

end

/-- Settles O15. -/
theorem leadingEdgeMakesARecord : Obligations.LeadingEdgeMakesARecord := by
  intro s k t hrst hpin hqual hruns henabled hfree hlower
  set w := covered s (.ls k) with hw
  have hrecord : ∀ t' : Tag, w.record t' = s.record t' := record_congr (by simp [hw])
  have htag : w.freeTag = some t :=
    freeTag_some ((hrecord t).trans hfree) fun t' ht' => by rw [hrecord]; exact hlower t' ht'
  have hexec : exec (.cover (.ls k)) s = .next (w.makeRecord k s.position t) := by
    rw [cover_ls hrst hpin hqual hruns henabled]
    change Host.Outcome.next (w.leadingEdge k s.position) = _
    simp only [State.leadingEdge, htag]
  have htrack : ∀ t' : Tag, (w.makeRecord k s.position t).record t'
      = if t = t' then some (edgeRecord w k s.position) else s.record t' := fun t' => by
    rw [record_congr (makeRecord_track ..), record_entered, hrecord]
  refine ⟨edgeRecord w k s.position, _, hexec, (htrack t).trans (if_pos rfl), rfl, rfl, rfl, rfl, rfl, rfl, rfl, rfl, rfl, ?_,
    fun t' ht' => (htrack t').trans (if_neg (Ne.symm ht')), ?_, fun hreason => ?_, fun o hreason hout => ?_, ?_, ?_,
    fun k' hk' => makeRecord_queues w k _ t hk', ?_, ?_, ?_, ?_, ?_, ?_, ?_⟩
  · rw [makeRecord_track]
    rfl
  · rw [makeRecord_track]
    rfl
  · rw [makeRecord_sched, State.bookBound, hreason]
    rfl
  · rw [makeRecord_sched, State.bookBound, if_pos (Option.isSome_iff_ne_none.mpr hreason), bookDiverter_some (o := o) (by exact hout)]
    rfl
  · simp [hw, covered]
  · simp [hw, covered]
  all_goals simp [hw]

/-! ## Edges that reach no record (R9 to R11, R14 to R16) -/

theorem exec_cover {s : State} {x : Sensor} (hrst : s.pins.rst = true) (hpin : s.pinLevel x = false) :
    exec (.cover x) s = .next ((s.setPin x true).coverQual x) := by
  simp only [exec, execCover, hpin, hrst, if_true, Bool.false_eq_true, if_false]

/-- R9: the rise of a CLEAR qualifier is a leading edge. -/
theorem exec_cover_clear {s : State} {x : Sensor} (hrst : s.pins.rst = true) (hpin : s.pinLevel x = false)
    (hqual : s.qual x = .clear) : exec (.cover x) s = .next ((covered s x).leadingEvent x) := by
  rw [exec_cover hrst hpin, State.coverQual, qual_setPin, hqual]
  rfl

/-- R14, R16: the edge is not handed on. -/
theorem covered_idle {s : State} {k : Lane} (x : Sensor) (h : s.line.runs = false ∨ s.enabled k = false) :
    ((covered s x).line.runs && (covered s x).enabled k) = false := by
  rw [enabled_congr (u := s) (by simp), (covered_frame s x).2.2.1]
  rcases h with h | h <;> simp [h]

theorem exec_confirm {s : State} {x : Sensor} {m : Pos} (hrst : s.pins.rst = true) (hqual : s.qual x = .clearing m s.position) :
    exec (.confirmPositionReached x) s = .next ((s.setQual x .clear).trailingEvent x m) := by
  simp only [exec, execConfirmPositionReached, whenUp_high hrst, State.confirmReached, hqual, if_true]

/-- R14, R40: a trailing edge that is discarded or finds no ENTERING record. -/
theorem trailingEvent_none {s : State} {x : Sensor} (m : Pos)
    (h : ∀ k, x = .ls k → s.line.runs = false ∨ s.enabled k = false
      ∨ ∀ t : Tag, ∀ r ∈ s.record t, ¬(r.lane = k ∧ r.state = .entering)) : s.trailingEvent x m = s := by
  cases x with
  | es k => rfl
  | ls k =>
    simp only [State.trailingEvent, State.routeTrailing]
    rcases h k rfl with hidle | hoff | hnone
    · simp [hidle]
    · simp [hoff]
    · have holdest : s.oldest k .entering = none := oldest_none fun t r hr hl hs => hnone t r hr ⟨hl, hs⟩
      split
      · simp only [State.trailingEdge, holdest]
      · rfl

/-- Settles O17. -/
theorem sensorEdgesWithoutARecord : Obligations.SensorEdgesWithoutARecord := by
  intro s hrst
  refine ⟨fun x m p hpin hqual => ?hole, fun k hpin hqual hplan hoff => ?warning, fun k hpin hqual hplan => ?unplanned,
    fun k hpin hqual hoff => ?arrival, fun x hpin hqual hwait => ?fall, fun x m p hqual hp => ?early,
    fun x m hqual hnone => ?confirmed⟩
  case hole =>
    rw [exec_cover hrst hpin, State.coverQual, qual_setPin, hqual]
  case warning =>
    have hplan' : (covered s (.ls k)).inPlan k = true := by rwa [inPlan_congr (u := s) (by simp)]
    rw [exec_cover_clear (x := .ls k) hrst hpin hqual]
    simp only [State.leadingEvent, State.routeLeading, covered_idle (.ls k) hoff, hplan', Bool.false_eq_true, if_false, if_true]
    rfl
  case unplanned =>
    have hplan' : (covered s (.ls k)).inPlan k = false := by rwa [inPlan_congr (u := s) (by simp)]
    rw [exec_cover_clear (x := .ls k) hrst hpin hqual]
    simp only [State.leadingEvent, State.routeLeading, State.enabled, hplan', Bool.false_and, Bool.and_false,
      Bool.false_eq_true, if_false]
    rfl
  case arrival =>
    rw [exec_cover_clear (x := .es k) hrst hpin hqual]
    simp only [State.leadingEvent, State.routeArrival, covered_idle (.es k) hoff, Bool.false_eq_true, if_false]
    rfl
  case fall =>
    have hmet : s.meetLaneOverlength x = s := by
      cases x with
      | es k => rfl
      | ls k =>
        simp only [State.meetLaneOverlength]
        split
        · exact overlength_none (hwait _)
        · rfl
    have hqual' : (s.setPin x false).qual x = .covered := by rw [qual_setPin, hqual]
    simp only [exec, execUncover, hpin, hrst, meetLaneOverlength_setPin, hmet, State.uncoverQual, hqual', Bool.not_true,
      Bool.false_eq_true, if_false, if_true]
    cases x <;> rfl
  case early =>
    simp only [exec, execConfirmPositionReached, whenUp_high hrst, State.confirmReached, hqual, if_neg hp]
  case confirmed =>
    rw [exec_confirm hrst hqual, trailingEvent_none]
    intro k hk
    subst hk
    exact hnone k rfl

/-! ## The overrun (R23, R38) -/

/-- R36: with every slot live there is none to take. -/
theorem freeTag_none {s : State} (h : ∀ t : Tag, s.record t ≠ none) : s.freeTag = none := by
  simp only [State.freeTag, List.find?_eq_none]
  intro t _
  simpa using h t

/-- Notes move the link and the report-loss flag alone. -/
theorem emits_eq (l : List Note) (s : State) :
    l.foldl State.emit s = { s with link := (l.foldl State.emit s).link, loss := (l.foldl State.emit s).loss } := by
  induction l generalizing s with
  | nil => rfl
  | cons n l ih =>
    rw [List.foldl_cons, ih (s.emit n)]
    apply state_ext <;> simp

/-- R23: the entries that a binding would take are lost with a note each; no head behind them is due. -/
theorem consumeUntracked_eq {s : State} {k : Lane}
    (h : ∀ e ∈ (bindQueue s.queues[k]).rest.head?, s.expiryOf e ≠ s.position) :
    s.consumeUntracked k = (((bindQueue s.queues[k]).separators ++ (bindQueue s.queues[k]).entry.toList).map
      (s.lostNote k .untracked)).foldl State.emit (s.setQueue k (bindQueue s.queues[k]).rest) := by
  simp only [State.consumeUntracked]
  rw [emitLosts_eq, expireHeads_none]
  · rfl
  · rw [emits_eq]
    intro e he
    refine h e ?_
    simpa using he

/-- Settles O18: the queue is consumed with its notes, then the lane is stopped as by any lane fault. -/
theorem overrunStopsTheLane : Obligations.OverrunStopsTheLane := by
  intro s k hrst hpin hqual hruns henabled hfull hoverdue hhead
  dsimp only
  set w := covered s (.ls k) with hw
  set notes := ((s.queues[k]).takeWhile QueueEntry.isSeparator
    ++ ((s.queues[k]).dropWhile QueueEntry.isSeparator).head?.toList).map (s.lostNote k .untracked) with hnotes
  set c := notes.foldl State.emit (w.setQueue k ((s.queues[k]).dropWhile QueueEntry.isSeparator).tail) with hc
  have hqueues : w.queues = s.queues := by simp [hw]
  have hconsume : w.consumeUntracked k = c := by
    rw [consumeUntracked_eq]
    · rw [hqueues]
      rfl
    · rw [hqueues]
      intro e he
      rw [expiryOf_congr (u := s) (by simp [hw]), position_covered]
      exact hhead e he
  have hcw : c = { w with
      queues := upd s.queues k ((s.queues[k]).dropWhile QueueEntry.isSeparator).tail, link := c.link, loss := c.loss } := by
    rw [hc, emits_eq, setQueue_eq, hqueues]
    rfl
  have hagree : Agree c s := by
    rw [hcw]
    exact ⟨by simp [hw], by simp [hw], rfl, by simp [hw]⟩
  have hexec : exec (.cover (.ls k)) s = .next (c.raiseFault k .trackOverrun s.position) := by
    rw [cover_ls hrst hpin hqual hruns henabled]
    change Host.Outcome.next (w.leadingEdge k s.position) = _
    have hfree : w.freeTag = none := freeTag_none fun t => by
      rw [record_congr (u := s) (by simp [hw])]
      exact hfull t
    simp only [State.leadingEdge, hfree, hconsume]
  obtain ⟨htrack, hsched, -, -⟩ := convertLane_agree hagree k
  obtain ⟨horder, hcounters⟩ := convertLane_track k s
  obtain ⟨hlink, hloss⟩ := emits_congr notes (s := w.setQueue k ((s.queues[k]).dropWhile QueueEntry.isSeparator).tail) (u := s)
    (by simp [hw]) (by simp [hw]) (by simp [hw]) (by simp [hw])
  obtain ⟨hvlink, hvloss⟩ := emit_congr (s := c) (u := notes.foldl State.emit s) hlink hloss
    (by rw [hcw, emits_node]; simp [hw]) (by rw [hcw, emits_setup]; simp [hw]) (.fault k .trackOverrun s.position)
  rw [raiseFault_eq _ _ _ _ ((NoneOverdue_agree hagree k).mpr hoverdue)] at hexec
  refine ⟨_, hexec, htrack, hsched, ?_, ?_, ?_, ?_, ?_, ?_, ?_, ?_, ?_, ?_, ?_, ?_, ?_⟩
  · exact (congrArg Tracking.counters htrack).trans hcounters
  · exact (congrArg Tracking.order htrack).trans horder
  · rw [hcw]
    simp [hw]
  · rw [hcw]
  · rw [hcw]
    simp [hw, covered]
  · rw [hcw]
    simp [hw, covered]
  · rw [List.foldl_append]
    exact hvlink
  · rw [List.foldl_append]
    exact hvloss
  all_goals
    rw [hcw]
    simp [hw]

end Sys2Proof.Proofs.Edges
end

section
/-! PROOFS. What each command row does with a telegram addressed to the part, and the form of its answer. -/

namespace Sys2Proof.Proofs.Rows

open Sys2Proof Sys2Proof.Machine Sys2Proof.Safety

section
variable {s : State} {src : Byte} (hrst : s.pins.rst = true) (haddr : s.addressable src = true)
include hrst haddr

theorem exec_announce (p : List Byte) : exec (.announce src p) s = .next (s.takeEntry .announce p) := by
  simp only [exec, execAnnounce, whenAddressed_acts hrst haddr]

theorem exec_separator (p : List Byte) : exec (.separator src p) s = .next (s.takeEntry .separator p) := by
  simp only [exec, execSeparator, whenAddressed_acts hrst haddr]

theorem exec_setupGlobals (p : List Byte) : exec (.setupGlobals src p) s = .next (s.setupGlobals src p) := by
  simp only [exec, execSetupGlobals, whenAddressed_acts hrst haddr]

theorem exec_setupStation (p : List Byte) : exec (.setupStation src p) s = .next (s.setupStation src p) := by
  simp only [exec, execSetupStation, whenAddressed_acts hrst haddr]

theorem exec_setupOutput (p : List Byte) : exec (.setupOutput src p) s = .next (s.setupOutput src p) := by
  simp only [exec, execSetupOutput, whenAddressed_acts hrst haddr]

theorem exec_setupDiverter (p : List Byte) : exec (.setupDiverter src p) s = .next (s.setupDiverter src p) := by
  simp only [exec, execSetupDiverter, whenAddressed_acts hrst haddr]

theorem exec_commitMap (p : List Byte) : exec (.commitMap src p) s = .next (s.commitMap src p) := by
  simp only [exec, execCommitMap, whenAddressed_acts hrst haddr]

theorem exec_loadArticle (p : List Byte) : exec (.loadArticle src p) s = .next (s.loadArticle src p) := by
  simp only [exec, execLoadArticle, whenAddressed_acts hrst haddr]

theorem exec_loadPlan (p : List Byte) : exec (.loadPlan src p) s = .next (s.loadPlan src p) := by
  simp only [exec, execLoadPlan, whenAddressed_acts hrst haddr]

theorem exec_loadCustomer (p : List Byte) : exec (.loadCustomer src p) s = .next (s.loadCustomer src p) := by
  simp only [exec, execLoadCustomer, whenAddressed_acts hrst haddr]

theorem exec_loadLanes (p : List Byte) : exec (.loadLanes src p) s = .next (s.loadLanes src p) := by
  simp only [exec, execLoadLanes, whenAddressed_acts hrst haddr]

theorem exec_lockEntry (p : List Byte) : exec (.lockEntry src p) s = .next (s.lockEntry src p) := by
  simp only [exec, execLockEntry, whenAddressed_acts hrst haddr]

theorem exec_clearLane (p : List Byte) : exec (.clearLane src p) s = .next (s.clearLane src p) := by
  simp only [exec, execClearLane, whenAddressed_acts hrst haddr]

theorem exec_tallyFreeze (p : List Byte) : exec (.tallyFreeze src p) s = .next (s.tallyFreeze src p) := by
  simp only [exec, execTallyFreeze, whenAddressed_acts hrst haddr]

theorem exec_tallyRead (p : List Byte) : exec (.tallyRead src p) s = .next (s.tallyRead src p) := by
  simp only [exec, execTallyRead, whenAddressed_acts hrst haddr]

theorem exec_statusRead (p : List Byte) : exec (.statusRead src p) s = .next (s.statusRead src p) := by
  simp only [exec, execStatusRead, whenAddressed_acts hrst haddr]

theorem exec_itemRead (p : List Byte) : exec (.itemRead src p) s = .next (s.itemRead src p) := by
  simp only [exec, execItemRead, whenAddressed_acts hrst haddr]

theorem exec_lineReset (p : List Byte) : exec (.lineReset src false p) s = .next (s.lineReset src p) := by
  simp only [exec, execLineReset, Bool.false_eq_true, if_false, whenAddressed_acts hrst haddr]

theorem exec_stackCmdClose (l v : Byte) : exec (.stackCmdClose src l v) s = .next (s.stackCmd src l .close v) := by
  simp only [exec, execStackCmdClose, whenAddressed_acts hrst haddr]

theorem exec_stackCmdStop (l v : Byte) : exec (.stackCmdStop src l v) s = .next (s.stackCmd src l .stop v) := by
  simp only [exec, execStackCmdStop, whenAddressed_acts hrst haddr]

theorem exec_stackCmdStopAfter (l v : Byte) : exec (.stackCmdStopAfter src l v) s = .next (s.stackCmd src l .stopAfter v) := by
  simp only [exec, execStackCmdStopAfter, whenAddressed_acts hrst haddr]

theorem exec_stackCmdResume (l v : Byte) : exec (.stackCmdResume src l v) s = .next (s.stackCmd src l .resume v) := by
  simp only [exec, execStackCmdResume, whenAddressed_acts hrst haddr]

theorem exec_stackCmdTarget (l v : Byte) : exec (.stackCmdTarget src l v) s = .next (s.stackCmd src l .target v) := by
  simp only [exec, execStackCmdTarget, whenAddressed_acts hrst haddr]

theorem exec_forceOutputSet (b : Byte) : exec (.forceOutputSet src b) s = .next (s.forceOutput src b .set) := by
  simp only [exec, execForceOutputSet, whenAddressed_acts hrst haddr]

theorem exec_forceOutputClear (b : Byte) : exec (.forceOutputClear src b) s = .next (s.forceOutput src b .clear) := by
  simp only [exec, execForceOutputClear, whenAddressed_acts hrst haddr]

theorem exec_forceOutputShot (b : Byte) : exec (.forceOutputShot src b) s = .next (s.forceOutput src b .shot) := by
  simp only [exec, execForceOutputShot, whenAddressed_acts hrst haddr]

theorem exec_lineModeReady : exec (.lineModeReady src false) s = .next (s.lineMode src .ready) := by
  simp only [exec, execLineModeReady, lineModeRow, Bool.false_eq_true, if_false, whenAddressed_acts hrst haddr]

theorem exec_lineModeRun : exec (.lineModeRun src false) s = .next (s.lineMode src .run) := by
  simp only [exec, execLineModeRun, lineModeRow, Bool.false_eq_true, if_false, whenAddressed_acts hrst haddr]

theorem exec_lineModeDrain : exec (.lineModeDrain src false) s = .next (s.lineMode src .drain) := by
  simp only [exec, execLineModeDrain, lineModeRow, Bool.false_eq_true, if_false, whenAddressed_acts hrst haddr]

theorem exec_lineModeService : exec (.lineModeService src false) s = .next (s.lineMode src .service) := by
  simp only [exec, execLineModeService, lineModeRow, Bool.false_eq_true, if_false, whenAddressed_acts hrst haddr]

/-- R174: a kind that the part does not know is answered INVALID. -/
theorem exec_unknownKind {kind : Byte} (h : kind ∉ inboundKinds) :
    exec (.unknownKind src kind) s = .next (s.answer src kind .invalid) := by
  have hcontains : inboundKinds.contains kind = false := by simpa using h
  simp only [exec, execUnknownKind, whenAddressed_acts hrst haddr, hcontains, Bool.false_eq_true, if_false]

end

/-- R170, R174: an answer without detail is one telegram. -/
theorem answer_eq (s : State) (src kind : Byte) (code : Code) :
    s.answer src kind code = s.report [plainAnswer s src kind code.code] := rfl

theorem plainAnswer_congr {s u : State} (h : s.node = u.node) (src kind code : Byte) :
    plainAnswer s src kind code = plainAnswer u src kind code := by
  simp only [plainAnswer, nodeByte_congr h]

end Sys2Proof.Proofs.Rows
end

section
/-! PROOFS. Closes, credits, the discharge timeout, the end of a drain, the LINE_RESET, and an announcement that joins. -/

namespace Sys2Proof.Proofs.Closing

open Sys2Proof Sys2Proof.Machine Sys2Proof.Safety Sys2Proof.Laws Sys2Proof.Proofs.Changes Sys2Proof.Proofs.Belt
open Sys2Proof.Proofs.Invariants Sys2Proof.Proofs.Edges Sys2Proof.Proofs.Rows

/-! ## Closes and credits (R115, R130 to R134) -/

/-- Settles O33. -/
theorem closeReportsCreditsAndAdvances : Obligations.CloseReportsCreditsAndAdvances := by
  intro s k cause phase o ho
  rw [closeStack_open ho]
  apply state_ext <;> simp [State.credit, Stacker.closed]

theorem satAdd_eq (a b : Nat) : satAdd a b = (min 16777215 (a + b), decide (16777215 < a + b)) := by
  unfold satAdd
  split
  · next h => simp [h, Nat.min_eq_left h.le]
  · next h => simp [h, Nat.min_eq_right (not_lt.mp h)]

/-- R134: each counter of a row holds at its limit, and the flag tells a loss. -/
theorem credit_eq (row : TallyRow) (p n r : Nat) : row.credit p n r =
    ⟨min 16777215 (row.pieces + p), min 16777215 (row.stackCount + n), min 16777215 (row.rejects + r),
      row.saturated || decide (16777215 < row.pieces + p) || decide (16777215 < row.stackCount + n)
        || decide (16777215 < row.rejects + r)⟩ := by
  simp only [TallyRow.credit, satAdd_eq]

/-- A credit within the row of its key leaves the rows of the other keys. -/
theorem mem_map_credit {l : List (Key × TallyRow)} {key k : Key} {row : TallyRow} {f : TallyRow → TallyRow} (h : k ≠ key) :
    (k, row) ∈ l.map (fun x => if x.1 = key then (x.1, f x.2) else x) ↔ (k, row) ∈ l := by
  rw [List.mem_map]
  constructor
  · rintro ⟨x, hx, e⟩
    split at e
    · next hkey =>
      cases e
      exact absurd hkey h
    · exact e ▸ hx
  · exact fun hx => ⟨(k, row), hx, if_neg h⟩

/-- Settles O35: by the three ends of a credit. -/
theorem creditGoesToOneRow : Obligations.CreditGoesToOneRow := by
  intro t key p n r _
  dsimp only
  simp only [← credit_eq]
  have hmem : t.live.any (fun x => x.1 = key) = true ↔ ∃ row, (key, row) ∈ t.live := by
    simp only [List.any_eq_true, decide_eq_true_eq]
    exact ⟨fun ⟨x, hx, e⟩ => ⟨x.2, e ▸ hx⟩, fun ⟨row, hrow⟩ => ⟨_, hrow, rfl⟩⟩
  rcases credit_cases t key p n r with ⟨hany, e⟩ | ⟨hnew, hroom, e⟩ | ⟨hnew, hfull, e⟩ <;> rw [e]
  · obtain ⟨there, hthere⟩ := hmem.mp hany
    refine ⟨rfl, fun k row hk => mem_map_credit (f := fun x => x.credit p n r) hk, fun row hrow => ⟨?_, rfl, by simp⟩, fun hno => absurd hthere (hno there),
      fun hno => absurd hthere (hno there)⟩
    exact List.mem_map.mpr ⟨_, hrow, if_pos rfl⟩
  · refine ⟨rfl, fun k row hk => ?_, fun row hrow => absurd rfl (hnew _ hrow), fun _ _ => ⟨?_, rfl, length_insertRow ..⟩,
      fun _ hfull => absurd hroom (Nat.not_lt.mpr hfull)⟩
    · rw [mem_insertRow]
      exact or_iff_right (by simp [hk])
    · exact mem_insertRow.mpr (.inl (congrArg (Prod.mk key) (credit_eq .zero p n r).symm))
  · exact ⟨rfl, fun _ _ _ => .rfl, fun row hrow => absurd rfl (hnew _ hrow),
      fun _ hroom => absurd hroom (Nat.not_lt.mpr hfull), fun _ _ => ⟨rfl, rfl⟩⟩

/-! ## The discharge timeout (R119, R166) -/

/-- Settles O37. -/
theorem dischargeTimeoutStopsTheLane : Obligations.DischargeTimeoutStopsTheLane := by
  intro s k hrst
  refine ⟨fun hphase htimer hoverdue => ?_, fun hnot => ?_⟩
  · have hstopped : stopped s.stackers[k] = { s.stackers[k] with phase := .stopped, timer := none, pausePending := false } := by
      simp only [stopped, hphase]
      rfl
    simp only [exec, execDischargeTimeout, whenUp_high hrst, State.dischargeTimeout, hphase, htimer, and_self, if_true]
    rw [raiseFault_eq _ _ _ _ hoverdue, hstopped]
  · have hnot' : ¬((s.stackers[k]).phase = .lowering ∧ (s.stackers[k]).timer = some 0) := not_and_or.mpr hnot
    simp only [exec, execDischargeTimeout, whenUp_high hrst, State.dischargeTimeout, if_neg hnot']

/-! ## The end of a drain (R34, R160 to R162) -/

/-- R34: the DRAINED notes of one lane. -/
def drainedNotes (s : State) (k : Lane) : List Note := (s.queues[k]).map (s.lostNote k .drained)

theorem drainQueue_eq (s : State) (k : Lane) : s.drainQueue k = (drainedNotes s k).foldl State.emit (s.setQueue k []) := by
  simp only [State.drainQueue, emitLosts_eq]
  rfl

/-- R34: the notes of several lanes, in the order given. -/
theorem drainQueues_fold (s : State) (l : List Lane) (hl : l.Nodup) (u : State) (hposition : u.position = s.position)
    (hu : ∀ k ∈ l, u.queues[k] = s.queues[k]) :
    (l.foldl State.drainQueue u).link = ((l.flatMap (drainedNotes s)).foldl State.emit u).link
      ∧ (l.foldl State.drainQueue u).loss = ((l.flatMap (drainedNotes s)).foldl State.emit u).loss := by
  induction l generalizing u with
  | nil => exact ⟨rfl, rfl⟩
  | cons a l ih =>
    obtain ⟨hnot, hl⟩ := List.nodup_cons.mp hl
    have hnotes : drainedNotes u a = drainedNotes s a := by
      simp only [drainedNotes, hu a (by simp)]
      exact List.map_congr_left fun e _ => by simp only [lostNote_eq, hposition]
    have hstep := drainQueue_eq u a
    rw [hnotes, emits_eq] at hstep
    obtain ⟨hlink, hloss⟩ := ih hl (u.drainQueue a) (by rw [hstep]; exact hposition) fun k hk => by
      have hne : ¬a.1 = k.1 := fun e => hnot (Fin.ext e ▸ hk)
      rw [hstep, ← hu k (by simp [hk])]
      simp [getElem_upd, hne]
    obtain ⟨hfirst, hfirst'⟩ := emits_congr (drainedNotes s a) (s := u.setQueue a []) (u := u) rfl rfl rfl rfl
    obtain ⟨hrest, hrest'⟩ := emits_congr (l.flatMap (drainedNotes s)) (s := u.drainQueue a)
      (u := (drainedNotes s a).foldl State.emit u) (by rw [hstep]; exact hfirst) (by rw [hstep]; exact hfirst')
      (by rw [hstep, emits_node]; rfl) (by rw [hstep, emits_setup]; rfl)
    rw [List.foldl_cons, List.flatMap_cons, List.foldl_append]
    exact ⟨hlink.trans hrest, hloss.trans hrest'⟩

theorem drainQueues_eq (s : State) :
    s.drainQueues = { (allLanes.flatMap (drainedNotes s)).foldl State.emit s with queues := Vector.replicate 4 [] } := by
  obtain ⟨hlink, hloss⟩ := drainQueues_fold s allLanes (List.nodup_finRange 4) s rfl fun _ _ => rfl
  have hqueues : s.drainQueues.queues = Vector.replicate 4 [] := by
    ext1 i hi
    simpa using drainQueues_queues s ⟨i, hi⟩
  rw [emits_eq]
  apply state_ext <;> simp [hqueues]
  · exact hloss
  · exact hlink

/-- What is reported does not read the line state or the queues. -/
theorem report_line_queues (v : State) (x : LineState) (q : Vector (List QueueEntry) 4) (ts : List Telegram) :
    ({ v with line := x, queues := q } : State).report ts = { v.report ts with line := x, queues := q } := by
  rcases Nat.lt_or_ge 16 (v.link.reports.length + ts.length) with hfull | hroom
  · rw [report_full hfull, report_full (s := { v with line := x, queues := q }) hfull]
    rfl
  · rw [report_room hroom, report_room (s := { v with line := x, queues := q }) hroom]
    rfl

theorem emit_line_queues (v : State) (x : LineState) (q : Vector (List QueueEntry) 4) (n : Note) :
    ({ v with line := x, queues := q } : State).emit n = { v.emit n with line := x, queues := q } := by
  by_cases h : v.node = 31
  · rw [emit_31 h, emit_31 (s := { v with line := x, queues := q }) h]
  · rw [emit_report h, emit_report (s := { v with line := x, queues := q }) h]
    exact report_line_queues v x q _

/-- R160, R162: the STATE_NOTE of the drain's end comes after the DRAINED notes. -/
theorem changeLine_drained {s : State} (hline : s.line = .drain) : s.drainQueues.changeLine .ready .drainEnd =
    { ((allLanes.flatMap (drainedNotes s)).foldl State.emit s).emit (.state .drain .ready .drainEnd s.position) with
      line := .ready, queues := Vector.replicate 4 [] } := by
  have hposition : s.drainQueues.position = s.position := position_congr (by simp)
  have hstate : s.drainQueues.setLine .ready
      = { (allLanes.flatMap (drainedNotes s)).foldl State.emit s with line := .ready, queues := Vector.replicate 4 [] } := by
    rw [drainQueues_eq]
    rfl
  simp only [State.changeLine, drainQueues_frame, hline, hposition, hstate]
  exact emit_line_queues ..

/-- Settles O38. -/
theorem drainEndsWhenItsTermsHold : Obligations.DrainEndsWhenItsTermsHold := by
  intro s hrst
  dsimp only
  rw [← drainDone_iff]
  refine ⟨fun hline hdone => ?_, fun hnot => ?_⟩
  · have hexec : exec .drainCompletion s = .next (s.drainQueues.changeLine .ready .drainEnd) := by
      simp only [exec, execDrainCompletion, whenUp_high hrst, State.completeDrain, hline, hdone, and_self, if_true]
    rw [hexec, changeLine_drained hline, List.foldl_append]
    rfl
  · have hnot' : ¬(s.line = .drain ∧ s.drainDone = true) := not_and_or.mpr hnot
    simp only [exec, execDrainCompletion, whenUp_high hrst, completeDrain_none hnot']

/-! ## LINE_RESET (R164) -/

/-- Settles O40: the answer is a reply that depends on what was to be sent alone. -/
theorem lineResetClearsTheLine : Obligations.LineResetClearsTheLine := by
  intro s src hrst haddressed
  have hreply := reply_answer src kindLineReset .accepted
  have hreset : s.lineReset src [] = s.lineResetWith (fun v => v.answer src kindLineReset .accepted) := rfl
  have hanswer : ((resetNotes s).foldl State.emit s).answer src kindLineReset .accepted
      = ((resetNotes s).foldl State.emit s).report [plainAnswer s src 0x41 0] := by
    rw [answer_eq, plainAnswer_congr (emits_node (resetNotes s) s)]
    rfl
  refine ⟨⟨_, exec_lineReset hrst haddressed [], ?_⟩, fun p hp => ?_⟩
  · rw [hreset, ← hanswer]
    exact lineResetWith_eq s _ hreply.frame hreply.congr
  · rw [exec_lineReset hrst haddressed]
    cases p with
    | nil => exact absurd rfl hp
    | cons b p => rfl

/-! ## Admission (R18, R19) -/

/-- Settles O48. -/
theorem announcementJoinsItsQueue : Obligations.AnnouncementJoinsItsQueue := by
  intro s src hi lo k a hrst haddressed hline henabled hroom
  have hruns : s.line.runs = true := by rcases hline with h | h <;> rw [h] <;> rfl
  have htake : ∀ kind p e, entryOf kind s.position p = some (k, e) →
      s.takeEntry kind p = s.setQueue k (s.queues[k] ++ [e]) := by
    intro kind p e he
    simp only [State.takeEntry, he, hruns, henabled, Bool.not_true, Bool.false_eq_true, if_false, if_neg (Nat.not_le.mpr hroom)]
  refine ⟨?_, ?_⟩
  · rw [exec_announce hrst haddressed, htake .announce _ (.announce a (hi ++ lo) s.position) (by simp [entryOf]; rfl)]
    rfl
  · rw [exec_separator hrst haddressed, htake .separator _ (.separator s.position) (by simp [entryOf])]
    rfl

end Sys2Proof.Proofs.Closing
end

section
/-! PROOFS. The lane-stop conversion: one record, then the entry order, then the statement. -/

namespace Sys2Proof.Proofs.Conversion

open Sys2Proof Sys2Proof.Machine Sys2Proof.Safety Sys2Proof.Proofs.Changes Sys2Proof.Proofs.Keeping

/-! ## One record (R51, R52) -/

/-- R51: the records that the conversion of lane `k` turns off the belt. -/
def turns (s : State) (k : Lane) (r : ItemRecord) : Bool :=
  decide (r.lane = k ∧ r.state ≠ .diverting ∧ r.reason = none) && ahead s.position (s.openAt k r.headRef)

/-- R52: what such a record becomes. -/
def turnedOff (r : ItemRecord) : ItemRecord :=
  { r with
    steps := cancelPending r.steps
    reason := some .laneStopped
    state := if r.curLen.isSome then .diverting else r.state }

/-- What the conversion makes of a record. -/
def convert (s : State) (k : Lane) (r : ItemRecord) : ItemRecord := if turns s k r then turnedOff r else r

/-- R81: the entry of one kind on the diverter output of lane `k`, where there is one. -/
def diverterEntry (s : State) (k : Lane) (t : Tag) (kind : FireKind) (p : Pos) : List FireEntry :=
  ((s.map.diverters[k]).output.map fun o => (⟨p, kind, o, t⟩ : FireEntry)).toList

/-- R52: the entries booked for a record that is turned off. -/
def bookings (s : State) (k : Lane) (t : Tag) (r : ItemRecord) : List FireEntry :=
  diverterEntry s k t .divertOpen (s.openAt k r.headRef)
    ++ r.curLen.elim [] fun n => diverterEntry s k t .divertClose (s.closeAt k (plus r.headRef n))

/-- R52: the entries booked for record `t`. -/
def booked (s : State) (k : Lane) (t : Tag) : List FireEntry :=
  (s.record t).elim [] fun r => if turns s k r then bookings s k t r else []

theorem booked_some {s : State} (k : Lane) {t : Tag} {r : ItemRecord} (h : s.record t = some r) :
    booked s k t = if turns s k r then bookings s k t r else [] := by
  simp only [booked, h, Option.elim_some]

theorem bookings_none {s : State} {k : Lane} (t : Tag) (r : ItemRecord) (h : (s.map.diverters[k]).output = none) :
    bookings s k t r = [] := by
  simp only [bookings, diverterEntry, h]
  cases r.curLen <;> rfl

theorem bookings_some {s : State} {k : Lane} {o : OutId} (t : Tag) (r : ItemRecord)
    (h : (s.map.diverters[k]).output = some o) :
    bookings s k t r = ⟨s.openAt k r.headRef, .divertOpen, o, t⟩ :: match r.curLen with
      | some n => [⟨s.closeAt k (plus r.headRef n), .divertClose, o, t⟩]
      | none => [] := by
  simp only [bookings, diverterEntry, h]
  cases r.curLen <;> rfl

theorem convertible_eq (s : State) (k : Lane) (r : ItemRecord) : s.convertible k r = turns s k r := by
  simp only [State.convertible, turns, Bool.decide_and, Bool.and_assoc]
  cases r.reason <;> simp

theorem not_isFold_of_mem_booked {s : State} {k : Lane} {t : Tag} {e : FireEntry} (h : e ∈ booked s k t) :
    e.kind.isFold = false := by
  have hentry : ∀ kind p, kind.isFold = false → e ∈ diverterEntry s k t kind p → e.kind.isFold = false := by
    intro kind p hkind he
    obtain ⟨o, -, rfl⟩ := Option.map_eq_some_iff.mp (Option.mem_toList.mp he)
    exact hkind
  unfold booked at h
  cases hr : s.record t with
  | none => simp [hr] at h
  | some r =>
    simp only [hr, Option.elim_some] at h
    split at h
    · rcases List.mem_append.mp h with h | h
      · exact hentry _ _ rfl h
      · cases hn : r.curLen with
        | none => simp [hn] at h
        | some n =>
          rw [hn] at h
          exact hentry _ _ rfl h
    · simp at h

theorem diverterEntry_congr {s u : State} (h : s.setup = u.setup) (k : Lane) (t : Tag) (kind : FireKind) (p : Pos) :
    diverterEntry s k t kind p = diverterEntry u k t kind p := by
  simp only [diverterEntry, map_congr h]

theorem bookDiverter_perm (s : State) (k : Lane) (t : Tag) (kind : FireKind) (p : Pos) :
    (s.bookDiverter k t kind p).sched.entries.Perm (s.sched.entries ++ diverterEntry s k t kind p) := by
  rw [bookDiverter_eq, diverterEntry]
  cases (s.map.diverters[k]).output with
  | none => simp
  | some o => exact (insertEntry_perm ..).trans (List.perm_append_singleton ..).symm

/-- The table and the schedule after record `t` is turned off. -/
theorem convertRecord_spec (s : State) (k : Lane) (t : Tag) (r : ItemRecord) :
    (∀ t' : Tag, (s.convertRecord k t r).record t' = if t = t' then some (turnedOff r) else s.record t')
      ∧ (s.convertRecord k t r).sched.entries.Perm
          (s.sched.entries.filter (fun e => !(decide (e.tag = t) && e.kind.isFold)) ++ bookings s k t r) := by
  simp only [State.convertRecord, bookings]
  cases hn : r.curLen with
  | none =>
    refine ⟨fun t' => ?_, ?_⟩
    · rw [record_bookDiverter, record_setRecord, record_cancelFolds]
      simp [turnedOff, hn]
    · rw [Option.elim_none, List.append_nil]
      exact bookDiverter_perm ((s.cancelFolds t).setRecord t _) k t .divertOpen (s.openAt k r.headRef)
  | some n =>
    refine ⟨fun t' => ?_, ?_⟩
    · rw [record_bookDiverter, record_setRecord, record_bookDiverter, record_setRecord, record_cancelFolds]
      by_cases h : t = t' <;> simp [turnedOff, hn, h]
    · have hopen := bookDiverter_perm ((s.cancelFolds t).setRecord t
        { r with steps := cancelPending r.steps, reason := some .laneStopped, curLen := some n }) k t .divertOpen
        (s.openAt k r.headRef)
      rw [Option.elim_some, ← List.append_assoc]
      refine (bookDiverter_perm _ k t .divertClose _).trans ?_
      rw [diverterEntry_congr (u := s) (by simp)]
      exact hopen.append_right _

/-! ## The schedule before the bookings -/

/-- R52: the entries that stay when the records among `l` that turn are converted: all but their FOLD entries. -/
def stays (s : State) (k : Lane) (l : List Tag) (e : FireEntry) : Bool :=
  !(e.kind.isFold && (decide (e.tag ∈ l) && (s.record e.tag).any (turns s k)))

theorem filter_booked {s : State} {k : Lane} {l : List Tag} (t : Tag) : (booked s k t).filter (stays s k l) = booked s k t :=
  List.filter_eq_self.mpr fun e he => by simp [stays, not_isFold_of_mem_booked he]

/-- The table and the schedule after the conversion has looked at `t`. -/
theorem convertOne_spec (s : State) (k : Lane) (t : Tag) :
    (∀ t' : Tag, (State.convertOne k s t).record t' = if t = t' then (s.record t).map (convert s k) else s.record t')
      ∧ (State.convertOne k s t).sched.entries.Perm (s.sched.entries.filter (stays s k [t]) ++ booked s k t) := by
  have hleft : ∀ h : (s.record t).any (turns s k) = false, s.sched.entries.filter (stays s k [t]) = s.sched.entries := by
    intro h
    refine List.filter_eq_self.mpr fun e _ => ?_
    by_cases he : e.tag = t <;> simp [stays, he, h]
  cases hr : s.record t with
  | none =>
    have hone : State.convertOne k s t = s := by simp only [State.convertOne, hr]
    rw [hone, hleft (by simp [hr])]
    refine ⟨fun t' => ?_, by simp [booked, hr]⟩
    split
    · next e => simp [← e, hr]
    · rfl
  | some r =>
    cases hturns : turns s k r with
    | false =>
      have hone : State.convertOne k s t = s := by simp only [State.convertOne, hr, convertible_eq, hturns]; rfl
      rw [hone, hleft (by simp [hr, hturns])]
      refine ⟨fun t' => ?_, by simp [booked, hr, hturns]⟩
      split
      · next e => simp [← e, hr, convert, hturns]
      · rfl
    | true =>
      have hone : State.convertOne k s t = s.convertRecord k t r := by
        simp only [State.convertOne, hr, convertible_eq, hturns, if_true]
      obtain ⟨hrecords, hentries⟩ := convertRecord_spec s k t r
      rw [hone]
      refine ⟨fun t' => (hrecords t').trans (by simp [convert, hturns]), ?_⟩
      have hfilter : s.sched.entries.filter (stays s k [t])
          = s.sched.entries.filter (fun e => !(decide (e.tag = t) && e.kind.isFold)) := by
        refine List.filter_congr fun e _ => ?_
        by_cases he : e.tag = t <;> simp [stays, he, hr, hturns]
      rw [hfilter]
      simpa [booked, hr, hturns] using hentries

/-! ## The entry order (R51) -/

theorem turns_congr {s u : State} (hunit : u.unit = s.unit) (hsetup : u.setup = s.setup) (k : Lane) : turns u k = turns s k := by
  funext r
  simp only [turns, position_congr hunit, openAt_congr hsetup]

theorem convert_congr {s u : State} (hunit : u.unit = s.unit) (hsetup : u.setup = s.setup) (k : Lane) :
    convert u k = convert s k := by
  funext r
  simp only [convert, turns_congr hunit hsetup]

theorem booked_congr {s u : State} (hunit : u.unit = s.unit) (hsetup : u.setup = s.setup) (k : Lane) {t : Tag}
    (hrecord : u.record t = s.record t) : booked u k t = booked s k t := by
  simp only [booked, bookings, diverterEntry, hrecord, turns_congr hunit hsetup, openAt_congr hsetup, closeAt_congr hsetup,
    map_congr hsetup]

/-- The conversion of the tags of `l`, each once, of a state that has them as `s` has. -/
theorem convertAll_spec (s : State) (k : Lane) (l : List Tag) (hl : l.Nodup) (u : State) (hunit : u.unit = s.unit)
    (hsetup : u.setup = s.setup) (hu : ∀ t ∈ l, u.record t = s.record t) :
    (∀ t : Tag, (l.foldl (State.convertOne k) u).record t = if t ∈ l then (s.record t).map (convert s k) else u.record t)
      ∧ (l.foldl (State.convertOne k) u).sched.entries.Perm
          (u.sched.entries.filter (stays s k l) ++ l.flatMap (booked s k)) := by
  induction l generalizing u with
  | nil =>
    have hall : u.sched.entries.filter (stays s k []) = u.sched.entries := List.filter_eq_self.mpr fun e _ => by simp [stays]
    simp [hall]
  | cons a l ih =>
    obtain ⟨hnot, hl⟩ := List.nodup_cons.mp hl
    obtain ⟨hrecords, hentries⟩ := convertOne_spec u k a
    have ha : u.record a = s.record a := hu a (by simp)
    obtain ⟨ihrecords, ihentries⟩ := ih hl (State.convertOne k u a) (by simpa using hunit) (by simpa using hsetup)
      fun t ht => by
        rw [hrecords, if_neg (by rintro rfl; exact hnot ht)]
        exact hu t (by simp [ht])
    refine ⟨fun t => ?_, ?_⟩
    · rw [List.foldl_cons, ihrecords, hrecords, ha, convert_congr hunit hsetup]
      by_cases hta : a = t
      · subst hta
        simp [hnot]
      · simp [hta, Ne.symm hta]
    · have hstays : (fun e => stays s k l e && stays u k [a] e) = stays s k (a :: l) := by
        funext e
        by_cases he : e.tag = a
        · simp [stays, he, hnot, ha, turns_congr hunit hsetup]
        · simp [stays, he]
      rw [booked_congr hunit hsetup k ha] at hentries
      refine ihentries.trans ?_
      have hfiltered := (hentries.filter (stays s k l)).append_right (l.flatMap (booked s k))
      rw [List.filter_append, List.filter_filter, filter_booked, hstays] at hfiltered
      simpa [List.append_assoc] using hfiltered

theorem stays_order {s : State} (h : OrderInv s) (k : Lane) (e : FireEntry) :
    stays s k s.track.order e = !(e.kind.isFold && (s.record e.tag).any (turns s k)) := by
  cases hr : s.record e.tag with
  | none => simp [stays, hr]
  | some r =>
    have hmem : e.tag ∈ s.track.order := (h.2 _).mpr (by simp [hr])
    simp [stays, hr, hmem]

/-- R51, R52: the conversion of a lane: every record that turns, and the schedule, whatever its order. -/
theorem convertLane_spec {s : State} (h : OrderInv s) (k : Lane) :
    (∀ t : Tag, (s.convertLane k).record t = (s.record t).map (convert s k))
      ∧ (s.convertLane k).sched.entries.Perm
          (s.sched.entries.filter (fun e => !(e.kind.isFold && (s.record e.tag).any (turns s k)))
            ++ s.track.order.flatMap (booked s k)) := by
  obtain ⟨hrecords, hentries⟩ := convertAll_spec s k s.track.order h.1 s rfl rfl fun _ _ => rfl
  refine ⟨fun t => (hrecords t).trans ?_, ?_⟩
  · split
    · rfl
    · next hnot =>
      have hnone : s.record t = none := by simpa using mt (h.2 t).mpr hnot
      simp [hnone]
  · rwa [List.filter_congr fun e _ => stays_order h k e] at hentries

/-- A record that turns is another afterwards. -/
theorem convert_ne {s : State} {k : Lane} {r : ItemRecord} (h : turns s k r = true) : convert s k r ≠ r := by
  intro e
  have hreason : r.reason = none := by
    simp only [turns, Bool.and_eq_true, decide_eq_true_eq] at h
    exact h.1.2.2
  rw [convert, if_pos h] at e
  simpa [turnedOff, hreason] using congrArg ItemRecord.reason e

theorem convertLane_busy (s : State) (k : Lane) : (s.convertLane k).sched.busy = s.sched.busy := by
  refine foldl_keeps (fun v => v.sched.busy) _ (fun v t => ?_) _ _
  simp only [State.convertOne, State.convertRecord, bookDiverter_eq]
  repeat' split
  all_goals simp [State.cancelFolds]

/-- Settles O28: by what the conversion makes of one record after another in the entry order. -/
theorem laneStopConversion : Obligations.LaneStopConversion := by
  intro s k horder
  obtain ⟨hrecords, hentries⟩ := convertLane_spec horder k
  obtain ⟨htrackOrder, hcounters⟩ := convertLane_track k s
  have hsame : ∀ t : Tag, (s.convertLane k).record t = s.record t ↔ (s.record t).any (turns s k) = false := by
    intro t
    rw [hrecords t]
    cases hr : s.record t with
    | none => simp
    | some r =>
      cases hturns : turns s k r with
      | true => simpa [hturns] using convert_ne hturns
      | false => simp [hturns, convert]
  refine ⟨fun t => ?records, fun e he ⟨j, hj⟩ => ?folds, fun e he hunchanged => ?kept, ?schedule, ?rest, htrackOrder, hcounters,
    convertLane_busy s k⟩
  case records => exact hrecords t
  case folds =>
    have hfold : e.kind.isFold = true := by rw [hj]; rfl
    rcases List.mem_append.mp (hentries.mem_iff.mp he) with h | h
    · obtain ⟨hmem, hstays⟩ := List.mem_filter.mp h
      exact ⟨hmem, (hsame _).mpr (by simpa [hfold] using hstays)⟩
    · obtain ⟨t, -, ht⟩ := List.mem_flatMap.mp h
      exact absurd (not_isFold_of_mem_booked ht) (by simp [hfold])
  case kept =>
    refine hentries.mem_iff.mpr (List.mem_append_left _ (List.mem_filter.mpr ⟨he, ?_⟩))
    simp [(hsame _).mp hunchanged]
  case schedule =>
    refine hentries.trans (.of_eq (congrArg (fun f => _ ++ s.track.order.flatMap f) (funext fun t => ?_)))
    cases hr : s.record t with
    | none => simp [booked, hr]
    | some r =>
      rw [booked_some k hr]
      cases hout : (s.map.diverters[k]).output with
      | none => rw [bookings_none t r hout, ite_self]
      | some o =>
        rw [bookings_some t r hout]
        rfl
  case rest =>
    apply state_ext <;> simp

end Sys2Proof.Proofs.Conversion
end

section
/-! PROOFS. The link: bytes, telegrams, the outbound line, and the reset pin. -/

namespace Sys2Proof.Proofs.Ring

open Sys2Proof Sys2Proof.Machine Sys2Proof.Safety Sys2Proof.Proofs.Changes Sys2Proof.Proofs.Rows

/-! ## One byte (R171) -/

/-- R171: the receiver holds no complete telegram. -/
def Waiting (rx : Receiver) : Prop := ∀ bytes, rx = .body bytes → completed bytes = none

theorem waiting_hunt (c : Bool) : Waiting (.hunt c) := fun _ h => by simp at h

theorem waiting_body {bytes : List Byte} (h : completed bytes = none) : Waiting (.body bytes) := by
  rintro _ ⟨⟩
  exact h

/-- R171: with no telegram complete nothing is disposed of. -/
theorem takeTelegram_waiting {s : State} (h : Waiting s.link.receiver) : s.takeTelegram = s := by
  unfold State.takeTelegram
  split
  · rfl
  · next bytes hbody => simp only [h bytes hbody]

theorem exec_rxdByte {s : State} (hrst : s.pins.rst = true) (h : Waiting s.link.receiver) (b : Byte) (ok : Bool) :
    exec (.rxdByte b ok) s = .next (s.setLink (s.link.receive b ok)) := by
  simp only [exec, execRxdByte, whenUp_high hrst, takeTelegram_waiting h]

section
variable {l : Link} {b : Byte} {ok : Bool}

theorem receive_hunt {c : Bool} (h : l.receiver = .hunt c) : l.receive b ok = { l with receiver := (
    if ok = false then .hunt false else if c = true ∧ b = 0x2C then .body [0xD3, 0x2C]
    else if b = 0xD3 then .hunt true else .hunt false) } := by
  simp only [Link.receive, h]
  cases ok with
  | false => rfl
  | true =>
    by_cases hmark : c = true ∧ b = 0x2C
    · simp only [hmark, and_self, if_true]
      rfl
    · by_cases hstart : b = 0xD3
      · rw [if_pos hstart]
        simp only [if_neg hmark, decide_eq_true hstart]
        rfl
      · rw [if_neg hstart]
        simp only [if_neg hmark, decide_eq_false hstart]
        rfl

theorem receive_body {bytes : List Byte} (h : l.receiver = .body bytes) : l.receive b ok =
    if ok = false then l.abandon else if bytes.length = 5 ∧ 40 < b.toNat then l.abandon
    else { l with receiver := .body (bytes ++ [b]) } := by
  simp only [Link.receive, h]
  cases ok <;> rfl

end

/-- Settles O42. -/
theorem receiverTakesOneByte : Obligations.ReceiverTakesOneByte := by
  intro s b ok hrst
  refine ⟨fun c hc => ?_, fun bytes hbytes hnone => ?_⟩
  · rw [exec_rxdByte hrst (hc ▸ waiting_hunt c), receive_hunt hc]
    rfl
  · rw [exec_rxdByte hrst (hbytes ▸ waiting_body hnone), receive_body hbytes]
    split
    · rfl
    · split <;> rfl

/-! ## A telegram byte by byte (R170, R171) -/

theorem run_step {s u : State} (n : Nat) (h : step s = .next u) : Sys2Proof.core.run (n + 1) s = Sys2Proof.core.run n u := by
  have hcore : Sys2Proof.core.step s = .next u := h
  simp only [Host.Core.run, hcore]

/-- The state with the queue of commands and the receiver moved on. -/
def heard (s : State) (rest : List Instr) (rx : Receiver) : State :=
  { s with pending := rest, link := { s.link with receiver := rx } }

theorem step_rxdByte {s : State} {b : Byte} {rest : List Instr} (hrst : s.pins.rst = true) (h : Waiting s.link.receiver)
    (hpending : s.pending = .rxdByte b true :: rest) :
    step s = .next { s with pending := rest, link := s.link.receive b true } := by
  rw [Protection.step_of_pending hpending, exec_rxdByte (s := { s with pending := rest }) hrst h]
  rfl

section
variable {s : State} {rest : List Instr} (hrst : s.pins.rst = true)
include hrst

theorem step_firstMark {c : Bool} (h : s.link.receiver = .hunt c) (hpending : s.pending = .rxdByte 0xD3 true :: rest) :
    step s = .next (heard s rest (.hunt true)) := by
  rw [step_rxdByte hrst (h ▸ waiting_hunt c) hpending, receive_hunt h, if_neg (by simp), if_neg (by simp), if_pos rfl]
  rfl

theorem step_secondMark (h : s.link.receiver = .hunt true) (hpending : s.pending = .rxdByte 0x2C true :: rest) :
    step s = .next (heard s rest (.body [0xD3, 0x2C])) := by
  rw [step_rxdByte hrst (h ▸ waiting_hunt true) hpending, receive_hunt h, if_neg (by simp), if_pos ⟨rfl, rfl⟩]
  rfl

theorem step_bodyByte {pre : List Byte} {b : Byte} (h : s.link.receiver = .body pre) (hnone : completed pre = none)
    (hlength : ¬(pre.length = 5 ∧ 40 < b.toNat)) (hpending : s.pending = .rxdByte b true :: rest) :
    step s = .next (heard s rest (.body (pre ++ [b]))) := by
  rw [step_rxdByte hrst (h ▸ waiting_body hnone) hpending, receive_body h, if_neg (by simp), if_neg hlength]
  rfl

end

/-- R171: the bytes of a body join it one by one while it is not complete and its length byte is good. -/
theorem run_body (bs : List Byte) (pre : List Byte) (s : State) (rest : List Instr) (hrst : s.pins.rst = true)
    (hbody : s.link.receiver = .body pre) (hpending : s.pending = bs.map (fun b => Instr.rxdByte b true) ++ rest)
    (hgood : ∀ l b r, bs = l ++ b :: r → completed (pre ++ l) = none ∧ ¬((pre ++ l).length = 5 ∧ 40 < b.toNat)) :
    Sys2Proof.core.run bs.length s = .next (heard s rest (.body (pre ++ bs))) := by
  induction bs generalizing pre s with
  | nil =>
    have hstate : heard s rest (.body (pre ++ [])) = s := by
      rw [List.append_nil, ← hbody, heard]
      apply state_ext <;> simp [hpending]
    rw [hstate]
    rfl
  | cons b bs ih =>
    obtain ⟨hnone, hlength⟩ := hgood [] b bs rfl
    rw [List.append_nil] at hnone hlength
    refine (run_step _ (step_bodyByte hrst hbody hnone hlength hpending)).trans ?_
    rw [show pre ++ b :: bs = pre ++ [b] ++ bs by simp]
    exact ih (pre ++ [b]) (heard s (bs.map (fun b => Instr.rxdByte b true) ++ rest) _) hrst rfl rfl fun l b' r hsplit => by
      simpa using hgood (b :: l) b' r (by rw [hsplit]; rfl)

/-- R170: a body spells its telegram and its check word. -/
theorem completed_bytes {t : Telegram} (h : t.payload.length ≤ 40) :
    completed t.bytes = some (t, bytes16 (checkSum t.body)) := by
  have hn : (byteOf t.payload.length).toNat = t.payload.length := byteOf_toNat (by omega)
  simp [Telegram.bytes, Telegram.body, completed, hn]

/-- R171: no shorter body is complete, and the length byte of the frame is good. -/
theorem bytes_prefixes {t : Telegram} (h : t.payload.length ≤ 40) {l : List Byte} {b : Byte} {r : List Byte}
    (hsplit : t.bytes = l ++ b :: r) : completed l = none ∧ ¬(l.length = 5 ∧ 40 < b.toNat) := by
  have hn : (byteOf t.payload.length).toNat = t.payload.length := byteOf_toNat (by omega)
  have hlength : l.length + (r.length + 1) = t.payload.length + 8 := by
    have := congrArg List.length hsplit
    simp [Telegram.bytes, Telegram.body] at this
    omega
  match l with
  | [] => exact ⟨rfl, by simp⟩
  | [_] => exact ⟨rfl, by simp⟩
  | [_, _] => exact ⟨rfl, by simp⟩
  | [_, _, _] => exact ⟨rfl, by simp⟩
  | [_, _, _, _] => exact ⟨rfl, by simp⟩
  | [_, _, _, _, _] =>
    obtain ⟨-, -, -, -, -, rfl, -⟩ := by simpa [Telegram.bytes, Telegram.body] using hsplit
    exact ⟨rfl, by omega⟩
  | _ :: _ :: _ :: _ :: _ :: n :: rest =>
    obtain ⟨-, -, -, -, -, rfl, -⟩ := by simpa [Telegram.bytes, Telegram.body] using hsplit
    simp only [List.length_cons] at hlength ⊢
    exact ⟨if_neg (by omega), by omega⟩

theorem foldl_toNat (l : List Byte) (n : Nat) : l.foldl (fun n b => n + b.toNat) n = n + (l.map BitVec.toNat).sum := by
  induction l generalizing n with
  | nil => rfl
  | cons b l ih => simp [ih, Nat.add_assoc]

/-- Settles O43: the start mark from HUNT, then the rest of the frame as a body. -/
theorem everyTelegramIsReceivedAsSent : Obligations.EveryTelegramIsReceivedAsSent := by
  intro t s c rest hfits hrst hhunt hpending
  refine ⟨t.bytes, ?_, completed_bytes hfits⟩
  set frame := t.body ++ bytes16 (checkSum t.body) with hframe
  have hbytes : t.bytes = [0xD3, 0x2C] ++ frame := by simp [Telegram.bytes, hframe]
  have hcheck : ([t.dest, t.src, t.kind, byteOf t.payload.length] ++ t.payload).foldl (fun n b => n + b.toNat) 0 % 65536
      = checkSum t.body := by
    rw [foldl_toNat, Nat.zero_add]
    rfl
  have hpending' : s.pending = .rxdByte 0xD3 true :: .rxdByte 0x2C true :: (frame.map (fun b => Instr.rxdByte b true) ++ rest) := by
    rw [hpending, hcheck]
    simp [hframe, Telegram.body]
  have hlength : t.payload.length + 8 = frame.length + 1 + 1 := by simp [hframe, Telegram.body]
  rw [hlength, hbytes]
  refine (run_step _ (step_firstMark hrst hhunt hpending')).trans ?_
  refine (run_step _ (step_secondMark (s := heard s _ (.hunt true)) hrst rfl rfl)).trans ?_
  exact run_body frame [0xD3, 0x2C] (heard s _ _) rest hrst rfl rfl fun l b r hsplit =>
    bytes_prefixes hfits (by rw [hbytes, hsplit]; rfl)

end Sys2Proof.Proofs.Ring
end

section
/-! PROOFS. What a completed telegram comes to, the outbound line, the reset pin, and ITEM_READ. -/

namespace Sys2Proof.Proofs.Telegrams

open Sys2Proof Sys2Proof.Machine Sys2Proof.Safety Sys2Proof.Proofs.Changes Sys2Proof.Proofs.Rows Sys2Proof.Proofs.Ring

/-! ## The reset pin (R165, R178) -/

theorem setPin_same {s : State} {x : Sensor} {b : Bool} (h : s.pinLevel x = b) : s.setPin x b = s := by
  cases x <;> simp [← h, State.pinLevel] <;> rfl

/-- A guarded command with its guard down. -/
theorem next_low {s v : State} {up : Bool} (h : up = false) :
    (Host.Outcome.next (if up then v else s) : Result) = .next s := by
  simp only [h, Bool.false_eq_true, if_false]

section
variable {s : State} (hlow : s.pins.rst = false)
include hlow

theorem whenBroadcast_low (t : Telegram) (f : State → State) : whenBroadcast t s f = .next s := next_low hlow

theorem lineModeRow_low (src : Byte) (b : Bool) (x : LineState) : lineModeRow src b x s = .next s := by
  cases b with
  | true => exact whenBroadcast_low hlow ..
  | false => exact next_low hlow

theorem execLineReset_low (src : Byte) (b : Bool) (p : List Byte) : execLineReset src b p s = .next s := by
  cases b with
  | true => exact whenBroadcast_low hlow ..
  | false => exact next_low hlow

/-- R165: while RST is low no command is taken but the moves of the sensor inputs and COLD_RESET. -/
theorem exec_low (c : Instr) (hcover : ∀ x, c ≠ .cover x) (huncover : ∀ x, c ≠ .uncover x) (hcold : ∀ na, c ≠ .coldReset na) :
    exec c s = .next s := by
  cases c with
  | cover x => exact absurd rfl (hcover x)
  | uncover x => exact absurd rfl (huncover x)
  | coldReset na => exact absurd rfl (hcold na)
  | lineModeReady | lineModeRun | lineModeDrain | lineModeService => exact lineModeRow_low hlow ..
  | lineReset => exact execLineReset_low hlow ..
  | _ => exact next_low hlow

end

/-- Settles O41. -/
theorem resetPinAndColdReset : Obligations.ResetPinAndColdReset := by
  intro s
  refine ⟨fun hlow => ⟨fun x => ?_, fun x => ?_, exec_low hlow⟩, fun na => ?_, fun hrst => ?_⟩
  · cases hpin : s.pinLevel x with
    | true => simp only [exec, execCover, hpin, if_true, setPin_same hpin]
    | false => simp only [exec, execCover, hpin, hlow, Bool.false_eq_true, if_false]
  · cases hpin : s.pinLevel x with
    | true => simp only [exec, execUncover, hpin, hlow, Bool.not_true, Bool.false_eq_true, if_false]
    | false => simp only [exec, execUncover, hpin, Bool.not_false, if_true, setPin_same hpin]
  · rw [exec_coldReset]
    rfl
  · simp only [exec, execRstFalls, whenUp_high hrst]
    rfl

/-! ## A completed telegram (R171, R172) -/

/-- The state with the receiver back in HUNT. -/
def hunting (s : State) : State := { s with link := { s.link with receiver := .hunt false } }

section
variable {s : State} {t : Telegram} {bytes check : List Byte} (hrst : s.pins.rst = true)
  (hbody : s.link.receiver = .body bytes) (hdone : completed bytes = some (t, check))
include hrst hbody hdone

theorem exec_received_good (hgood : check = bytes16 (checkSum t.body)) :
    exec .telegramReceived s = .next ((hunting s).dispose t) := by
  simp only [exec, execTelegramReceived, whenUp_high hrst, State.takeTelegram, hbody, hdone, if_pos hgood]
  rfl

theorem exec_received_bad (hbad : check ≠ bytes16 (checkSum t.body)) :
    exec .telegramReceived s = .next (s.setLink s.link.abandon) := by
  simp only [exec, execTelegramReceived, whenUp_high hrst, State.takeTelegram, hbody, hdone, if_neg hbad]

end

theorem exec_received_none {s : State} (hrst : s.pins.rst = true) (h : Waiting s.link.receiver) :
    exec .telegramReceived s = .next s := by
  simp only [exec, execTelegramReceived, whenUp_high hrst, takeTelegram_waiting h]

theorem ownTelegram_iff (s : State) (src : Byte) : s.ownTelegram src = true ↔ s.node ≠ 31 ∧ src.toNat = s.node.toNat := by
  simp [State.ownTelegram]

theorem isDestination_iff (s : State) (t : Telegram) :
    s.isDestination t = true ↔ s.node ≠ 31 ∧ t.dest.toNat = s.node.toNat := by
  simp [State.isDestination]

theorem addressable_iff (s : State) (src : Byte) : s.addressable src = true ↔ s.node ≠ 31 ∧ src.toNat ≠ s.node.toNat := by
  simp [State.addressable]

section
variable {s : State} {t : Telegram}

/-! ## The four lines of R172 -/

theorem dispose_own (h : s.node ≠ 31 ∧ t.src.toNat = s.node.toNat) : s.dispose t = s :=
  if_pos ((ownTelegram_iff s t.src).mpr h)

theorem dispose_mine (hown : ¬(s.node ≠ 31 ∧ t.src.toNat = s.node.toNat)) (h : s.node ≠ 31 ∧ t.dest.toNat = s.node.toNat) :
    s.dispose t = s.act t := by
  rw [State.dispose, if_neg (mt (ownTelegram_iff s t.src).mp hown), if_pos ((isDestination_iff s t).mpr h)]

theorem dispose_all (hown : ¬(s.node ≠ 31 ∧ t.src.toNat = s.node.toNat)) (hmine : ¬(s.node ≠ 31 ∧ t.dest.toNat = s.node.toNat))
    (h : t.isBroadcast = true) : s.dispose t = s.broadcast t (State.actAll t) := by
  rw [State.dispose, if_neg (mt (ownTelegram_iff s t.src).mp hown), if_neg (mt (isDestination_iff s t).mp hmine), if_pos h]

theorem dispose_other (hown : ¬(s.node ≠ 31 ∧ t.src.toNat = s.node.toNat)) (hmine : ¬(s.node ≠ 31 ∧ t.dest.toNat = s.node.toNat))
    (h : ¬t.isBroadcast = true) : s.dispose t = s.forward t := by
  rw [State.dispose, if_neg (mt (ownTelegram_iff s t.src).mp hown), if_neg (mt (isDestination_iff s t).mp hmine), if_neg h]

end

theorem isBroadcast_iff (t : Telegram) : t.isBroadcast = true ↔ t.dest = 31 ∧ (t.kind = 0x40 ∨ t.kind = 0x41) := by
  simp only [Telegram.isBroadcast, Bool.and_eq_true, Bool.or_eq_true, decide_eq_true_eq]
  exact and_congr_right fun _ => or_comm

/-! ## What a kind does (R174, R175, Section 11.5) -/

section
variable {s : State} {src : Byte} {p : List Byte}

/-- R159, R175: the targets of a LINE_MODE. -/
theorem lineModeTarget_eq :
    lineModeTarget [1] = some .ready ∧ lineModeTarget [2] = some .run ∧ lineModeTarget [3] = some .drain
      ∧ lineModeTarget [4] = some .service := by decide

theorem lineModeTarget_none (h : p ∉ ([[1], [2], [3], [4]] : List (List Byte))) : lineModeTarget p = none := by
  unfold lineModeTarget
  split
  · next b =>
    simp only [List.mem_cons, List.cons.injEq, and_true, List.not_mem_nil, or_false, not_or] at h
    obtain ⟨h1, h2, h3, h4⟩ := h
    by_cases h0 : b = 0
    · rw [if_pos h0]
    · simp only [byteLineState, h0, h1, h2, h3, h4, if_false]
  · rfl

theorem lineModePayload_some {x : LineState} (h : lineModeTarget p = some x) : s.lineModePayload src p = s.lineMode src x := by
  simp only [State.lineModePayload, h]

theorem lineModePayload_none (h : lineModeTarget p = none) : s.lineModePayload src p = s.answer src kindLineMode .invalid := by
  simp only [State.lineModePayload, h]

theorem byteStackOp_none {b : Byte} (h : 4 < b.toNat) : byteStackOp b = none := by
  have h0 : b ≠ 0 := by bv_omega
  have h1 : b ≠ 1 := by bv_omega
  have h2 : b ≠ 2 := by bv_omega
  have h3 : b ≠ 3 := by bv_omega
  have h4 : b ≠ 4 := by bv_omega
  simp only [byteStackOp, h0, h1, h2, h3, h4, if_false]

theorem byteForceOp_none {b : Byte} (h : 2 < b.toNat) : byteForceOp b = none := by
  have h0 : b ≠ 0 := by bv_omega
  have h1 : b ≠ 1 := by bv_omega
  have h2 : b ≠ 2 := by bv_omega
  simp only [byteForceOp, h0, h1, h2, if_false]

/-- R121: a STACK_CMD of another length, or of an operation above 4. -/
theorem stackCmdTelegram_bad (h : p.length ≠ 3 ∨ ∃ l op v, p = [l, op, v] ∧ 4 < op.toNat) :
    s.stackCmdTelegram src p = s.answer src kindStackCmd .invalid := by
  unfold State.stackCmdTelegram
  split
  · next l op v =>
    obtain ⟨l', op', v', e, hop⟩ := h.resolve_left (by simp)
    cases e
    simp only [byteStackOp_none hop]
  · rfl

/-- R102: a FORCE_OUTPUT of another length, or of an operation above 2. -/
theorem forceOutputTelegram_bad (h : p.length ≠ 2 ∨ ∃ o op, p = [o, op] ∧ 2 < op.toNat) :
    s.forceOutputTelegram src p = s.answer src kindForceOutput .invalid := by
  unfold State.forceOutputTelegram
  split
  · next o op =>
    obtain ⟨o', op', e, hop⟩ := h.resolve_left (by simp)
    cases e
    simp only [byteForceOp_none hop]
  · rfl

end

/-- R174: a telegram of a kind that the part does not know. -/
theorem act_unknown {s : State} {t : Telegram} (h : t.kind ∉ inboundKinds) : s.act t = s.answer t.src t.kind .invalid := by
  simp only [inboundKinds, List.mem_cons, List.not_mem_nil, or_false, not_or] at h
  obtain ⟨h1, h2, h3, h4, h5, h6, h7, h8, h9, h10, h11, h12, h13, h14, h15, h16, h17, h18, h19, h20, h21⟩ := h
  simp only [State.act, h1, h2, h3, h4, h5, h6, h7, h8, h9, h10, h11, h12, h13, h14, h15, h16, h17, h18, h19, h20, h21, if_false]

/-- Settles O44: the telegram is disposed of by the part it is addressed to, and its kind and payload name its row. -/
theorem goodTelegramActsAsItsCommand : Obligations.GoodTelegramActsAsItsCommand := by
  intro s t hrst hbody hfits hnode hmine hsource
  dsimp only
  obtain ⟨dest, src, kind, p⟩ := t
  dsimp only at *
  set s' := hunting s with hs'
  have hrst' : s'.pins.rst = true := hrst
  have haddr : s'.addressable src = true := (addressable_iff _ _).mpr ⟨hnode, hsource⟩
  have hexec : exec .telegramReceived s = .next (s'.act ⟨dest, src, kind, p⟩) := by
    rw [exec_received_good hrst hbody (completed_bytes hfits) rfl]
    exact congrArg Host.Outcome.next (dispose_mine (s := s') (t := ⟨dest, src, kind, p⟩) (fun h => hsource h.2) ⟨hnode, hmine⟩)
  have hdoes : ∀ {c : Instr} {v : State}, exec c s' = .next v → s'.act ⟨dest, src, kind, p⟩ = v →
      exec .telegramReceived s = exec c s' := by
    intro c v hc hv
    rw [hexec, hc, hv]
  refine ⟨?_, ?_, ?_, ?_, ?_, ?_, ?_, ?_, ?_, ?_, ?_, ?_, ?_, ?_, ?_, ?_, ?_, ?_, ?_, ?_, ?_, ?_⟩
  · rintro rfl; exact hdoes (exec_announce hrst' haddr p) rfl
  · rintro rfl; exact hdoes (exec_separator hrst' haddr p) rfl
  · rintro rfl; exact hdoes (exec_setupGlobals hrst' haddr p) rfl
  · rintro rfl; exact hdoes (exec_setupStation hrst' haddr p) rfl
  · rintro rfl; exact hdoes (exec_setupOutput hrst' haddr p) rfl
  · rintro rfl; exact hdoes (exec_setupDiverter hrst' haddr p) rfl
  · rintro rfl; exact hdoes (exec_commitMap hrst' haddr p) rfl
  · rintro rfl; exact hdoes (exec_loadArticle hrst' haddr p) rfl
  · rintro rfl; exact hdoes (exec_loadPlan hrst' haddr p) rfl
  · rintro rfl; exact hdoes (exec_loadCustomer hrst' haddr p) rfl
  · rintro rfl; exact hdoes (exec_loadLanes hrst' haddr p) rfl
  · rintro rfl; exact hdoes (exec_lockEntry hrst' haddr p) rfl
  · rintro rfl
    obtain ⟨hready, hrun, hdrain, hservice⟩ := lineModeTarget_eq
    have hact : s'.act ⟨dest, src, 0x40, p⟩ = s'.lineModePayload src p := rfl
    refine ⟨?_, ?_, ?_, ?_, fun hbad => ?_⟩
    · rintro rfl; exact hdoes (exec_lineModeReady hrst' haddr) (hact.trans (lineModePayload_some hready))
    · rintro rfl; exact hdoes (exec_lineModeRun hrst' haddr) (hact.trans (lineModePayload_some hrun))
    · rintro rfl; exact hdoes (exec_lineModeDrain hrst' haddr) (hact.trans (lineModePayload_some hdrain))
    · rintro rfl; exact hdoes (exec_lineModeService hrst' haddr) (hact.trans (lineModePayload_some hservice))
    · rw [hexec, hact, lineModePayload_none (lineModeTarget_none hbad)]
      rfl
  · rintro rfl; exact hdoes (exec_lineReset hrst' haddr p) rfl
  · rintro rfl
    have hact : s'.act ⟨dest, src, 0x42, p⟩ = s'.stackCmdTelegram src p := rfl
    refine ⟨fun l v => ⟨?_, ?_, ?_, ?_, ?_⟩, fun hbad => ?_⟩
    · rintro rfl; exact hdoes (exec_stackCmdClose hrst' haddr l v) rfl
    · rintro rfl; exact hdoes (exec_stackCmdStop hrst' haddr l v) rfl
    · rintro rfl; exact hdoes (exec_stackCmdStopAfter hrst' haddr l v) rfl
    · rintro rfl; exact hdoes (exec_stackCmdResume hrst' haddr l v) rfl
    · rintro rfl; exact hdoes (exec_stackCmdTarget hrst' haddr l v) rfl
    · rw [hexec, hact, stackCmdTelegram_bad hbad]
      rfl
  · rintro rfl; exact hdoes (exec_clearLane hrst' haddr p) rfl
  · rintro rfl
    have hact : s'.act ⟨dest, src, 0x44, p⟩ = s'.forceOutputTelegram src p := rfl
    refine ⟨fun o => ⟨?_, ?_, ?_⟩, fun hbad => ?_⟩
    · rintro rfl; exact hdoes (exec_forceOutputSet hrst' haddr o) rfl
    · rintro rfl; exact hdoes (exec_forceOutputClear hrst' haddr o) rfl
    · rintro rfl; exact hdoes (exec_forceOutputShot hrst' haddr o) rfl
    · rw [hexec, hact, forceOutputTelegram_bad hbad]
      rfl
  · rintro rfl; exact hdoes (exec_tallyFreeze hrst' haddr p) rfl
  · rintro rfl; exact hdoes (exec_tallyRead hrst' haddr p) rfl
  · rintro rfl; exact hdoes (exec_statusRead hrst' haddr p) rfl
  · rintro rfl; exact hdoes (exec_itemRead hrst' haddr p) rfl
  · intro hkind
    exact hdoes (exec_unknownKind hrst' haddr hkind) (act_unknown hkind)

/-! ## The other ends (R171, R172) -/

theorem abandon_eq (s : State) : s.setLink s.link.abandon
    = { hunting s with link := { (hunting s).link with errors := min 255 (s.link.errors + 1) } } := by
  have herrors : (if s.link.errors < 255 then s.link.errors + 1 else 255) = min 255 (s.link.errors + 1) := by
    split <;> omega
  rw [← herrors]
  rfl

theorem forward_room {s : State} (t : Telegram) (h : s.link.forward.length < 2) :
    s.forward t = { s with link := { s.link with
      forward := s.link.forward ++ [t]
      transmitter := if s.link.transmitter = .idle then .forwarding else s.link.transmitter } } := by
  rw [State.forward, if_pos h, Link.start]
  cases htransmitter : s.link.transmitter <;> simp [htransmitter] <;> rfl

theorem forward_full {s : State} (t : Telegram) (h : 2 ≤ s.link.forward.length) :
    s.forward t = { s with link := { s.link with errors := min 255 (s.link.errors + 1) } } := by
  have herrors : (if s.link.errors < 255 then s.link.errors + 1 else 255) = min 255 (s.link.errors + 1) := by
    split <;> omega
  rw [State.forward, if_neg (Nat.not_lt.mpr h), ← herrors]
  rfl

section
variable {s : State} {t : Telegram} (hrst : s.pins.rst = true) (hown : ¬(s.node ≠ 31 ∧ t.src.toNat = s.node.toNat))
include hrst hown

/-- R172: a broadcast row does what its telegram is disposed of by. -/
theorem whenBroadcast_eq (f : State → State) : whenBroadcast t s f = .next (s.broadcast t f) :=
  whenBroadcast_other hrst (by
    by_cases h : s.node = 31
    · exact .inl h
    · exact .inr fun hsource => hown ⟨h, hsource⟩)

theorem exec_lineReset_all (hdest : t.dest = 31) (hkind : t.kind = 0x41) :
    exec (.lineReset t.src true t.payload) s = .next (s.broadcast t (State.actAll t)) := by
  obtain ⟨dest, src, kind, p⟩ := t
  dsimp only at hdest hkind hown ⊢
  subst hdest hkind
  simp only [exec, execLineReset, if_true]
  exact whenBroadcast_eq (t := ⟨31, src, 0x41, p⟩) hrst hown _

theorem lineModeRow_all {x : LineState} (hdest : t.dest = 31) (hkind : t.kind = 0x40) (hpayload : t.payload = [x.code])
    (htarget : lineModeTarget [x.code] = some x) :
    lineModeRow t.src true x s = .next (s.broadcast t (State.actAll t)) := by
  obtain ⟨dest, src, kind, p⟩ := t
  dsimp only at hdest hkind hpayload hown ⊢
  subst hdest hkind hpayload
  have hact : State.actAll ⟨31, src, 0x40, [x.code]⟩ = State.lineModeAll x := by
    funext v
    have : State.actAll ⟨31, src, 0x40, [x.code]⟩ v = v.lineModePayloadAll [x.code] := rfl
    rw [this, State.lineModePayloadAll, htarget]
  rw [hact, lineModeRow, if_pos rfl]
  exact whenBroadcast_eq (t := lineModeTelegram src x) hrst hown _

end

/-- R172: a broadcast of which nothing is made is forwarded alone. -/
theorem broadcast_idle {s : State} {t : Telegram} {f : State → State} (h : ∀ v, f v = v) :
    s.broadcast t f = ({ s with freeIndex := s.freeIndex + 1 } : State).forward t := by
  rcases broadcast_cases s t f with e | e
  · rw [e, h]
    rfl
  · rw [e, h]
    rfl

theorem lineResetAll_bad {p : List Byte} (h : p ≠ []) (v : State) : v.lineResetAll p = v := by
  cases p with
  | nil => exact absurd rfl h
  | cons b p => rfl

/-- Settles O45. -/
theorem otherTelegramsAreRemovedOrForwarded : Obligations.OtherTelegramsAreRemovedOrForwarded := by
  intro s hrst
  refine ⟨fun src kind haddr hkind => ?_, fun c hc => exec_received_none hrst (hc ▸ waiting_hunt c), fun t check bytes hbody => ?_⟩
  · rw [exec_unknownKind hrst haddr hkind]
    rfl
  dsimp only
  refine ⟨fun hnone => exec_received_none hrst (hbody ▸ waiting_body hnone), fun hdone hbad => ?bad,
    fun ⟨hdone, hgood⟩ hown => ?own, fun ⟨hdone, hgood⟩ hown hmine hall hroom => ?room,
    fun ⟨hdone, hgood⟩ hown hmine hall hfull => ?full, fun ⟨hdone, hgood⟩ hown hmine hdest hkind => ?reset,
    fun ⟨hdone, hgood⟩ hown hmine hdest hkind => ?mode⟩
  case bad => rw [exec_received_bad hrst hbody hdone hbad, abandon_eq]; rfl
  case own => rw [exec_received_good hrst hbody hdone hgood, dispose_own (s := hunting s) hown]; rfl
  case room =>
    rw [exec_received_good hrst hbody hdone hgood, dispose_other (s := hunting s) hown hmine (mt (isBroadcast_iff t).mp hall),
      forward_room (s := hunting s) t hroom]
    rfl
  case full =>
    rw [exec_received_good hrst hbody hdone hgood, dispose_other (s := hunting s) hown hmine (mt (isBroadcast_iff t).mp hall),
      forward_full (s := hunting s) t hfull]
    rfl
  case reset =>
    rw [exec_received_good hrst hbody hdone hgood,
      dispose_all (s := hunting s) hown hmine ((isBroadcast_iff t).mpr ⟨hdest, .inr hkind⟩)]
    refine ⟨(exec_lineReset_all (s := hunting s) hrst hown hdest hkind).symm, fun hpayload => ?_⟩
    rw [broadcast_idle]
    · rfl
    · intro v
      have hreset : t.kind = kindLineReset := hkind
      rw [State.actAll, if_pos hreset, lineResetAll_bad hpayload]
  case mode =>
    rw [exec_received_good hrst hbody hdone hgood,
      dispose_all (s := hunting s) hown hmine ((isBroadcast_iff t).mpr ⟨hdest, .inl hkind⟩)]
    obtain ⟨hready, hrun, hdrain, hservice⟩ := lineModeTarget_eq
    refine ⟨fun hp => ?_, fun hp => ?_, fun hp => ?_, fun hp => ?_, fun hbad => ?_⟩
    · exact (lineModeRow_all (s := hunting s) (x := .ready) hrst hown hdest hkind hp hready).symm
    · exact (lineModeRow_all (s := hunting s) (x := .run) hrst hown hdest hkind hp hrun).symm
    · exact (lineModeRow_all (s := hunting s) (x := .drain) hrst hown hdest hkind hp hdrain).symm
    · exact (lineModeRow_all (s := hunting s) (x := .service) hrst hown hdest hkind hp hservice).symm
    · rw [broadcast_idle]
      · rfl
      · intro v
        have hmode : t.kind ≠ kindLineReset := by rw [hkind]; decide
        simp only [State.actAll, if_neg hmode, State.lineModePayloadAll, lineModeTarget_none hbad]

/-! ## The outbound line (R173) -/

theorem start_idle {l : Link} (h : l.transmitter = .idle) : l.start = { l with transmitter :=
    (if l.forward ≠ [] then .forwarding else if l.reports ≠ [] then .reporting else .idle) } := by
  rw [Link.start, h]
  dsimp only
  split
  · rfl
  · split
    · rfl
    · rw [← h]

theorem start_busy {l : Link} (h : l.transmitter ≠ .idle) : l.start = l := by
  rw [Link.start]
  split
  · next hidle => exact absurd hidle h
  · rfl

theorem sent_forwarding {l : Link} (h : l.transmitter = .forwarding) :
    l.sent = { l with forward := l.forward.tail, transmitter := .idle }.start := by
  rw [Link.sent, h]

theorem sent_reporting {l : Link} (h : l.transmitter = .reporting) :
    l.sent = { l with reports := l.reports.tail, transmitter := .idle }.start := by
  rw [Link.sent, h]

theorem sent_idle {l : Link} (h : l.transmitter = .idle) : l.sent = l := by
  rw [Link.sent, h]

/-- Settles O47. -/
theorem outboundLineQueuesAndSends : Obligations.OutboundLineQueuesAndSends := by
  intro s
  have hsent : s.pins.rst = true → exec .telegramSent s = .next (s.setLink s.link.sent) := fun hrst => by
    simp only [exec, execTelegramSent, whenUp_high hrst]
  refine ⟨fun t f hrst hsends hforward => ?_, fun t r hrst hsends hreports => ?_, fun hrst hidle => ?_,
    fun ts n => ⟨fun hroom hne => ?_, report_full, emit_31, emit_report⟩⟩
  · rw [hsent hrst, sent_forwarding hsends, hforward, start_idle rfl]
    rfl
  · rw [hsent hrst, sent_reporting hsends, hreports, start_idle rfl]
    rfl
  · rw [hsent hrst, sent_idle hidle]
    rfl
  · rw [report_room hroom]
    have hwaits : s.link.reports ++ ts ≠ [] := by simp [hne]
    by_cases hidle : s.link.transmitter = .idle
    · rw [start_idle (l := { s.link with reports := s.link.reports ++ ts }) hidle]
      simp only [hidle, if_pos hwaits]
      rfl
    · rw [start_busy (l := { s.link with reports := s.link.reports ++ ts }) hidle]
      simp only [if_pos hidle]
      rfl

/-! ## ITEM_READ (R55, R177) -/

theorem itemRead_bad {s : State} {src : Byte} {p : List Byte} (h : p.length ≠ 1 ∨ ∃ b ∈ p, 23 < b.toNat) :
    s.itemRead src p = s.answer src kindItemRead .invalid := by
  unfold State.itemRead
  split
  · next b =>
    obtain ⟨b', hb', hlarge⟩ := h.resolve_left (by simp)
    cases List.mem_singleton.mp hb'
    rw [byteFin_none hlarge]
  · rfl

/-- Settles O60. -/
theorem itemReadShowsTheRecord : Obligations.ItemReadShowsTheRecord := by
  intro s src t hrst haddr
  dsimp only
  have hread : exec (.itemRead src [byteOf t]) s = .next (s.report (s.itemAnswers src t)) := by
    rw [exec_itemRead hrst haddr]
    simp only [State.itemRead, byteFin_byteOf t (by omega)]
  refine ⟨fun p hp => ?_, fun hnone => ?_, fun r hr => ?_⟩
  · rw [exec_itemRead hrst haddr, itemRead_bad hp]
    rfl
  · rw [hread, State.itemAnswers, hnone]
    rfl
  · rw [hread, State.itemAnswers, hr]
    simp only [State.itemPart1, itemPart2, List.isEmpty_iff]
    rcases r.reason with _ | x
    · rfl
    · cases x <;> rfl

end Sys2Proof.Proofs.Telegrams
end

section
/-! PROOFS. The staging loads: what each writes to the staging copy and what it refuses (R143 to R147). -/

namespace Sys2Proof.Proofs.Staging

open Sys2Proof Sys2Proof.Machine Sys2Proof.Safety Sys2Proof.Proofs.Changes Sys2Proof.Proofs.Rows

/-! ## A staging load (R143) -/

section
variable {s : State} (src kind : Byte)

theorem stage_some (h : s.line = .init) (m : StationMap) (code : Code) : s.stage src kind (some (m, code))
    = (s.setSetup { s.setup with staging := m }).report [plainAnswer s src kind code.code] :=
  if_neg (not_not.mpr h)

theorem stage_none (h : s.line = .init) : s.stage src kind none = s.report [plainAnswer s src kind 4] :=
  if_neg (not_not.mpr h)

theorem stage_frozen (h : s.line ≠ .init) (x : Option (StationMap × Code)) :
    s.stage src kind x = s.report [plainAnswer s src kind 5] :=
  if_pos h

end

/-! ## Reading a field (R175) -/

@[simp] theorem inRange_iff {lo hi n : Nat} : inRange lo hi n = true ↔ lo ≤ n ∧ n ≤ hi := by
  simp [inRange]

/-- R175: the byte of an output field. -/
def outputByte (w : Option OutId) : Byte := match w with
  | some o => byteOf o
  | none => 255

theorem byteOutput_outputByte (w : Option OutId) : byteOutput (outputByte w) = some w := by
  cases w with
  | none => rfl
  | some o =>
    have hother : byteOf o.1 ≠ 255 := fun h => by
      have := congrArg BitVec.toNat h
      rw [byteOf_toNat (by omega)] at this
      simp at this
      omega
    simp only [outputByte, byteOutput, if_neg hother, byteFin_byteOf o (by omega), Option.map_some]

theorem byteOutput_none {b : Byte} (h : 15 < b.toNat ∧ b ≠ 255) : byteOutput b = none := by
  simp only [byteOutput, if_neg h.2, byteFin_none h.1, Option.map_none]

/-! ## SETUP_GLOBALS (R144) -/

theorem globals_valid_iff (g : Globals) : g.valid = true ↔ g.prescale ∈ [1, 2, 4, 8] ∧ (4 ≤ g.confirmSpan ∧ g.confirmSpan ≤ 255)
    ∧ (1 ≤ g.margin ∧ g.margin ≤ 63) ∧ (8 ≤ g.arm ∧ g.arm ≤ 1023) ∧ (256 ≤ g.announceSpan ∧ g.announceSpan ≤ 65535)
    ∧ (1 ≤ g.stackDist ∧ g.stackDist ≤ 65535) ∧ (4 ≤ g.tol ∧ g.tol ≤ 255) ∧ g.reportNode.toNat ≤ 30
    ∧ (1 ≤ g.timeout ∧ g.timeout ≤ 255) := by
  simp only [Globals.valid, Bool.and_eq_true, inRange_iff, List.contains_iff_mem, decide_eq_true_eq, and_assoc]

theorem prescale_mem {p : Byte} (h : p.toNat ∈ [1, 2, 4, 8]) : p ∈ ([1, 2, 4, 8] : List Byte) := by
  simp only [List.mem_cons, List.not_mem_nil, or_false] at h ⊢
  bv_omega

/-! ## SETUP_STATION (R145) -/

section
variable {dist busy : Nat} {w x y z : Byte}

theorem stationOf_kind {kind : Byte} (h : 2 < kind.toNat) : stationOf kind dist busy w x y z = none := by
  have h0 : kind ≠ 0 := by bv_omega
  have h1 : kind ≠ 1 := by bv_omega
  have h2 : kind ≠ 2 := by bv_omega
  simp only [stationOf, h0, h1, h2, if_false, ite_self]

theorem stationOf_range {kind : Byte} (hkind : kind ≠ 0) (h : ¬(inRange 1 65535 dist && inRange 1 4095 busy) = true) :
    stationOf kind dist busy w x y z = none := by
  rw [stationOf, if_neg hkind, if_pos (by rw [Bool.eq_false_iff.mpr h]; rfl)]

/-- R145: a LANE station with the outputs that its four bytes name. -/
theorem stationOf_outputs (l : Vector (Option OutId) 4) (h : (inRange 1 65535 dist && inRange 1 4095 busy) = true) :
    stationOf 1 dist busy (outputByte l[0]) (outputByte l[1]) (outputByte l[2]) (outputByte l[3])
      = some (.lane dist busy l) := by
  rw [stationOf, if_neg (by decide), if_neg (by rw [h]; decide), if_pos rfl]
  simp only [byteOutput_outputByte]
  congr 2
  apply Vector.ext
  intro j hj
  match j, hj with
  | 0, _ | 1, _ | 2, _ | 3, _ => rfl

theorem stationOf_shared (h : (inRange 1 65535 dist && inRange 1 4095 busy) = true) :
    stationOf 2 dist busy w x y z = (byteFin 16 w).map (fun o => .shared dist busy o) := by
  rw [stationOf, if_neg (by decide), if_neg (by rw [h]; decide), if_neg (by decide), if_pos rfl]

theorem stationOf_lane_bad (h : byteOutput w = none ∨ byteOutput x = none ∨ byteOutput y = none ∨ byteOutput z = none) :
    stationOf 1 dist busy w x y z = none := by
  by_cases hrange : (inRange 1 65535 dist && inRange 1 4095 busy) = true
  · rw [stationOf, if_neg (by decide), if_neg (by rw [hrange]; decide), if_pos rfl]
    split
    · next ha hb hc hd => simp [ha, hb, hc, hd] at h
    · rfl
  · exact stationOf_range (by decide) hrange

theorem stationOf_shared_bad (h : 15 < w.toNat) : stationOf 2 dist busy w x y z = none := by
  by_cases hrange : (inRange 1 65535 dist && inRange 1 4095 busy) = true
  · rw [stationOf_shared hrange, byteFin_none h]
    rfl
  · exact stationOf_range (by decide) hrange

end

/-! ## SETUP_OUTPUT and SETUP_DIVERTER (R146, R147) -/

theorem outCfgOf_pulse {n : Nat} (hlow : 1 ≤ n) (hhigh : n ≤ 1023) : outCfgOf 0 n = some (⟨.pulse, n⟩, .accepted) := by
  have hmode : byteMode 0 = some .pulse := rfl
  simp only [outCfgOf, hmode, if_neg (Nat.not_lt.mpr hhigh), if_neg (Nat.one_le_iff_ne_zero.mp hlow)]

theorem outCfgOf_zero : outCfgOf 0 (word16 0 0) = some (⟨.pulse, 1⟩, .clamped) := by decide

theorem outCfgOf_long {n : Nat} (h : 1023 < n) : outCfgOf 0 n = none := by
  have hmode : byteMode 0 = some .pulse := rfl
  simp only [outCfgOf, hmode, if_pos h]

theorem outCfgOf_mode {mode : Byte} {n : Nat} (h : 1 < mode.toNat) : outCfgOf mode n = none := by
  have h0 : mode ≠ 0 := by bv_omega
  have h1 : mode ≠ 1 := by bv_omega
  simp only [outCfgOf, byteMode, if_neg h0, if_neg h1]

section
variable {out a b cap t : Byte} {dist : Nat}

theorem diverterOf_some {w : Option OutId} (hout : byteOutput out = some w) (hlow : 1 ≤ dist) (hhigh : dist ≤ 65535)
    (hcap : cap.toNat ≤ 3) : diverterOf out dist a b cap t = some ⟨w, dist, a.toNat, b.toNat, cap.toNat, t.toNat⟩ := by
  simp [diverterOf, hout, hlow, hhigh, hcap]

theorem diverterOf_none (h : byteOutput out = none ∨ dist = 0 ∨ 3 < cap.toNat) : diverterOf out dist a b cap t = none := by
  unfold diverterOf
  split
  · rfl
  · next w hw =>
    apply if_neg
    simp only [Bool.and_eq_true, inRange_iff, decide_eq_true_eq]
    rcases h with h | h | h
    · simp [hw] at h
    all_goals omega

end

/-! ## What a load of good form does -/

section
variable {s : State} {src : Byte} (hrst : s.pins.rst = true) (haddr : s.addressable src = true)
include hrst haddr

theorem exec_setupStation_form (i : StationId) (kind d1 d0 b1 b0 w x y z : Byte) :
    exec (.setupStation src [byteOf i, kind, d1, d0, b1, b0, w, x, y, z]) s
      = .next (s.stage src kindSetupStation ((stationOf kind (word16 d1 d0) (word16 b1 b0) w x y z).map
          (fun c => ({ s.setup.staging with stations := upd s.setup.staging.stations i c }, .accepted)))) := by
  rw [exec_setupStation hrst haddr]
  simp only [State.setupStation, byteFin_byteOf i (by omega)]

theorem exec_setupOutput_form (o : OutId) (mode s1 s0 : Byte) :
    exec (.setupOutput src [byteOf o, mode, s1, s0]) s
      = .next (s.stage src kindSetupOutput ((outCfgOf mode (word16 s1 s0)).map
          (fun c => ({ s.setup.staging with outputs := upd s.setup.staging.outputs o (some c.1) }, c.2)))) := by
  rw [exec_setupOutput hrst haddr]
  simp only [State.setupOutput, byteFin_byteOf o (by omega)]

theorem exec_setupDiverter_form (k : Lane) (o d1 d0 a b cap t : Byte) :
    exec (.setupDiverter src [byteOf k, o, d1, d0, a, b, cap, t]) s
      = .next (s.stage src kindSetupDiverter ((diverterOf o (word16 d1 d0) a b cap t).map
          (fun c => ({ s.setup.staging with diverters := upd s.setup.staging.diverters k c }, .accepted)))) := by
  rw [exec_setupDiverter hrst haddr]
  simp only [State.setupDiverter, byteFin_byteOf k (by omega)]

variable (hinit : s.line = .init)
include hinit

theorem setupGlobals_good {g : Globals} {p q mg arm1 arm0 a1 a0 sd1 sd0 tol node timeout : Byte}
    (hg : (⟨p.toNat, q.toNat, mg.toNat, word16 arm1 arm0, word16 a1 a0, word16 sd1 sd0, tol.toNat, node, timeout.toNat⟩
      : Globals) = g) (hvalid : g.valid = true) :
    exec (.setupGlobals src [p, q, mg, arm1, arm0, a1, a0, sd1, sd0, tol, node, timeout]) s
      = .next ((s.setSetup { s.setup with staging := { s.setup.staging with globals := some g } }).report
          [plainAnswer s src 0x20 0]) := by
  rw [exec_setupGlobals hrst haddr]
  subst hg
  simp only [State.setupGlobals, hvalid, if_true, stage_some src _ hinit]
  rfl

theorem setupGlobals_bad {p q mg arm1 arm0 a1 a0 sd1 sd0 tol node timeout : Byte}
    (h : ¬(⟨p.toNat, q.toNat, mg.toNat, word16 arm1 arm0, word16 a1 a0, word16 sd1 sd0, tol.toNat, node, timeout.toNat⟩
      : Globals).valid = true) :
    exec (.setupGlobals src [p, q, mg, arm1, arm0, a1, a0, sd1, sd0, tol, node, timeout]) s
      = .next (s.report [plainAnswer s src 0x20 4]) := by
  rw [exec_setupGlobals hrst haddr]
  simp only [State.setupGlobals, if_neg h, stage_none src _ hinit]
  rfl

theorem setupStation_good {i : StationId} {c : Station} {kind d1 d0 b1 b0 w x y z : Byte}
    (h : stationOf kind (word16 d1 d0) (word16 b1 b0) w x y z = some c) :
    exec (.setupStation src [byteOf i, kind, d1, d0, b1, b0, w, x, y, z]) s
      = .next ((s.setSetup { s.setup with staging := { s.setup.staging with
          stations := upd s.setup.staging.stations i c } }).report [plainAnswer s src 0x21 0]) := by
  rw [exec_setupStation_form hrst haddr, h, Option.map_some, stage_some src _ hinit]
  rfl

theorem setupStation_bad {i : StationId} {kind d1 d0 b1 b0 w x y z : Byte}
    (h : stationOf kind (word16 d1 d0) (word16 b1 b0) w x y z = none) :
    exec (.setupStation src [byteOf i, kind, d1, d0, b1, b0, w, x, y, z]) s
      = .next (s.report [plainAnswer s src 0x21 4]) := by
  rw [exec_setupStation_form hrst haddr, h, Option.map_none, stage_none src _ hinit]
  rfl

theorem setupOutput_good {o : OutId} {c : OutCfg} {code : Code} {mode s1 s0 : Byte}
    (h : outCfgOf mode (word16 s1 s0) = some (c, code)) :
    exec (.setupOutput src [byteOf o, mode, s1, s0]) s
      = .next ((s.setSetup { s.setup with staging := { s.setup.staging with
          outputs := upd s.setup.staging.outputs o (some c) } }).report [plainAnswer s src 0x22 code.code]) := by
  rw [exec_setupOutput_form hrst haddr, h, Option.map_some, stage_some src _ hinit]
  rfl

theorem setupOutput_bad {o : OutId} {mode s1 s0 : Byte} (h : outCfgOf mode (word16 s1 s0) = none) :
    exec (.setupOutput src [byteOf o, mode, s1, s0]) s = .next (s.report [plainAnswer s src 0x22 4]) := by
  rw [exec_setupOutput_form hrst haddr, h, Option.map_none, stage_none src _ hinit]
  rfl

theorem setupDiverter_good {k : Lane} {c : Diverter} {o d1 d0 a b cap t : Byte}
    (h : diverterOf o (word16 d1 d0) a b cap t = some c) :
    exec (.setupDiverter src [byteOf k, o, d1, d0, a, b, cap, t]) s
      = .next ((s.setSetup { s.setup with staging := { s.setup.staging with
          diverters := upd s.setup.staging.diverters k c } }).report [plainAnswer s src 0x23 0]) := by
  rw [exec_setupDiverter_form hrst haddr, h, Option.map_some, stage_some src _ hinit]
  rfl

theorem setupDiverter_bad {k : Lane} {o d1 d0 a b cap t : Byte} (h : diverterOf o (word16 d1 d0) a b cap t = none) :
    exec (.setupDiverter src [byteOf k, o, d1, d0, a, b, cap, t]) s = .next (s.report [plainAnswer s src 0x23 4]) := by
  rw [exec_setupDiverter_form hrst haddr, h, Option.map_none, stage_none src _ hinit]
  rfl

end

/-- Settles O50. -/
theorem stagingLoadsWriteTheStagingCopy : Obligations.StagingLoadsWriteTheStagingCopy := by
  intro s src hrst haddr hinit
  dsimp only
  refine ⟨?globals, ?globalsBad, ?stations, ?stationForms, ?outputs, ?outputForms, ?diverters, ?diverterForms⟩
  case globals =>
    intro p q mg arm a sd tol node timeout hp hq hq' hmg hmg' harm harm' ha ha' hsd hsd' htol htol' hnode htime htime'
    have hp' : p < 256 := by
      simp only [List.mem_cons, List.not_mem_nil, or_false] at hp
      omega
    refine setupGlobals_good hrst haddr hinit ?_ ((globals_valid_iff _).mpr
      ⟨hp, ⟨hq, hq'⟩, ⟨hmg, hmg'⟩, ⟨harm, harm'⟩, ⟨ha, ha'⟩, ⟨hsd, hsd'⟩, ⟨htol, htol'⟩, ?_, htime, htime'⟩)
    · rw [byteOf_toNat hp', byteOf_toNat (show q < 256 by omega), byteOf_toNat (show mg < 256 by omega),
        word16_bytes (show arm < 65536 by omega), word16_bytes (show a < 65536 by omega), word16_bytes (show sd < 65536 by omega),
        byteOf_toNat (show tol < 256 by omega), byteOf_toNat (show timeout < 256 by omega)]
    · rw [byteOf_toNat (show node < 256 by omega)]
      exact hnode
  case globalsBad =>
    intro p q mg arm1 arm0 a1 a0 sd1 sd0 tol node timeout hbad
    refine setupGlobals_bad hrst haddr hinit fun hvalid => ?_
    obtain ⟨hp, hq, hmg, harm, ha, hsd, htol, hnode, htime⟩ := (globals_valid_iff _).mp hvalid
    have hp' := prescale_mem hp
    dsimp only [word16] at *
    have hmg' : mg ≠ 0 := by bv_omega
    have htime' : timeout ≠ 0 := by bv_omega
    simp only [hp', hmg', htime', not_true, false_or, or_false] at hbad
    omega
  case stations =>
    intro i dist busy o l x y z hdist hdist' hbusy hbusy'
    have hwords : word16 (byteOf (dist / 256)) (byteOf dist) = dist ∧ word16 (byteOf (busy / 256)) (byteOf busy) = busy :=
      ⟨word16_bytes (by omega), word16_bytes (by omega)⟩
    have hrange : (inRange 1 65535 dist && inRange 1 4095 busy) = true := by simp [hdist, hdist', hbusy, hbusy']
    refine ⟨setupStation_good hrst haddr hinit ?_, setupStation_good hrst haddr hinit ?_⟩
    · rw [hwords.1, hwords.2]
      exact stationOf_outputs l hrange
    · rw [hwords.1, hwords.2, stationOf_shared hrange, byteFin_byteOf o (by omega), Option.map_some]
  case stationForms =>
    intro i kind d1 d0 b1 b0 w x y z
    refine ⟨?_, fun hkind => setupStation_bad hrst haddr hinit (stationOf_kind hkind), fun hkind hrange => ?_, ?_, ?_⟩
    · rintro rfl
      exact setupStation_good hrst haddr hinit rfl
    · refine setupStation_bad hrst haddr hinit (stationOf_range ?_ ?_)
      · rcases hkind with rfl | rfl <;> decide
      · simp only [Bool.and_eq_true, inRange_iff, word16]
        omega
    · rintro rfl hout
      refine setupStation_bad hrst haddr hinit (stationOf_lane_bad ?_)
      exact hout.imp byteOutput_none (Or.imp byteOutput_none (Or.imp byteOutput_none byteOutput_none))
    · rintro rfl hout
      exact setupStation_bad hrst haddr hinit (stationOf_shared_bad hout)
  case outputs =>
    intro o shot hlow hhigh
    refine ⟨setupOutput_good (code := .accepted) hrst haddr hinit ?_, setupOutput_good (code := .clamped) hrst haddr hinit outCfgOf_zero⟩
    rw [word16_bytes (by omega), outCfgOf_pulse hlow hhigh]
  case outputForms =>
    intro o mode s1 s0
    refine ⟨?_, ?_, fun hmode => setupOutput_bad hrst haddr hinit (outCfgOf_mode hmode)⟩
    · rintro rfl
      exact setupOutput_good (code := .accepted) hrst haddr hinit rfl
    · rintro rfl hlong
      exact setupOutput_bad hrst haddr hinit (outCfgOf_long hlong)
  case diverters =>
    intro k o dist openLead closeTrail cap timeout hdist hdist' hopen hclose hcap htime
    have hword : word16 (byteOf (dist / 256)) (byteOf dist) = dist := word16_bytes (by omega)
    have hcap' : (byteOf cap).toNat = cap := byteOf_toNat (by omega)
    have hsome : ∀ w : Option OutId, diverterOf (outputByte w) dist (byteOf openLead) (byteOf closeTrail) (byteOf cap)
        (byteOf timeout) = some ⟨w, dist, openLead, closeTrail, cap, timeout⟩ := fun w => by
      rw [diverterOf_some (byteOutput_outputByte w) hdist hdist' (hcap'.trans_le hcap), hcap',
        byteOf_toNat (show openLead < 256 by omega), byteOf_toNat (show closeTrail < 256 by omega),
        byteOf_toNat (show timeout < 256 by omega)]
    refine ⟨setupDiverter_good hrst haddr hinit ?_, setupDiverter_good hrst haddr hinit ?_⟩
    · rw [hword]
      exact hsome (some o)
    · rw [hword]
      exact hsome none
  case diverterForms =>
    intro k o d1 d0 openLead closeTrail cap timeout hbad
    exact setupDiverter_bad hrst haddr hinit (diverterOf_none (hbad.imp_left byteOutput_none))

end Sys2Proof.Proofs.Staging
end

section
/-! PROOFS. The seven commit checks and the commit (R148, R149). -/

namespace Sys2Proof.Proofs.Commit

open Sys2Proof Sys2Proof.Machine Sys2Proof.Safety Sys2Proof.Proofs.Changes Sys2Proof.Proofs.Rows Sys2Proof.Proofs.Staging

/-! ## The least failing item -/

/-- `x` is the least number that has the property, if one has it. -/
def Least (P : Nat → Prop) (x : Option Byte) : Prop :=
  match x with
  | none => ∀ i, ¬P i
  | some b => P b.toNat ∧ ∀ i, P i → b.toNat ≤ i

/-- `x` is the least pair, by its first number and then its second, that has the property, if one has it. -/
def LeastPair (F : Nat → Nat → Prop) (x : Option (Byte × Byte)) : Prop :=
  match x with
  | none => ∀ c i, ¬F c i
  | some (c, i) => F c.toNat i.toNat ∧ ∀ c' i', F c' i' → c.toNat < c' ∨ (c.toNat = c' ∧ i.toNat ≤ i')

theorem Least.congr {P Q : Nat → Prop} {x : Option Byte} (h : Least P x) (heq : ∀ i, P i ↔ Q i) : Least Q x :=
  (funext fun i => propext (heq i) : P = Q) ▸ h

theorem LeastPair.congr {F G : Nat → Nat → Prop} {x : Option (Byte × Byte)} (h : LeastPair F x)
    (heq : ∀ c i, F c i ↔ G c i) : LeastPair G x :=
  (funext fun c => funext fun i => propext (heq c i) : F = G) ▸ h

theorem LeastPair.none_iff {F : Nat → Nat → Prop} {x : Option (Byte × Byte)} (h : LeastPair F x) :
    x = none ↔ ∀ c i, ¬F c i := by
  cases x with
  | none => exact iff_of_true rfl h
  | some b => exact iff_of_false (by simp) fun hnone => hnone _ _ h.1

theorem LeastPair.some_iff {F : Nat → Nat → Prop} {x : Option (Byte × Byte)} (h : LeastPair F x) (check item : Byte) :
    x = some (check, item) ↔ F check.toNat item.toNat
      ∧ ∀ c i, F c i → check.toNat < c ∨ (check.toNat = c ∧ item.toNat ≤ i) := by
  refine ⟨fun hx => ?_, fun ⟨hfails, hleast⟩ => ?_⟩
  · subst hx
    exact h
  · cases x with
    | none => exact absurd hfails (h _ _)
    | some b =>
      obtain ⟨hb, hbleast⟩ := h
      have hle := hleast _ _ hb
      have hge := hbleast _ _ hfails
      have hcheck : b.1 = check := by bv_omega
      have hitem : b.2 = item := by bv_omega
      rw [← hcheck, ← hitem]

/-- A check before the others: its least item where it fails, and what the others name where it does not. -/
theorem leastPair_orElse {F : Nat → Nat → Prop} {c : Byte} {x : Option Byte} {rest : Option (Byte × Byte)}
    (hx : Least (F c.toNat) x) (hrest : LeastPair (fun c' i => c.toNat + 1 ≤ c' ∧ F c' i) rest) :
    LeastPair (fun c' i => c.toNat ≤ c' ∧ F c' i) (x.map (fun i => (c, i)) <|> rest) := by
  cases x with
  | none =>
    refine hrest.congr fun c' i => ⟨fun ⟨hlt, hF⟩ => ⟨by omega, hF⟩, fun ⟨hle, hF⟩ => ⟨?_, hF⟩⟩
    rcases Nat.lt_or_eq_of_le hle with hlt | heq
    · exact hlt
    · exact absurd (heq ▸ hF) (hx i)
  | some b =>
    refine ⟨⟨Nat.le_refl _, hx.1⟩, fun c' i ⟨hle, hF⟩ => ?_⟩
    rcases Nat.lt_or_eq_of_le hle with hlt | heq
    · exact .inl hlt
    · exact .inr ⟨heq, hx.2 i (heq ▸ hF)⟩

/-- The first number of a table that has a property is the least. -/
theorem least_find {n base : Nat} (p : Fin n → Bool) (hsize : base + n ≤ 256) :
    Least (fun i => ∃ o : Fin n, i = base + o.1 ∧ p o = true)
      (((List.finRange n).find? p).map (fun o => byteOf (base + o.1))) := by
  cases hfind : (List.finRange n).find? p with
  | none =>
    rintro i ⟨o, -, ho⟩
    exact List.find?_eq_none.mp hfind o (List.mem_finRange o) ho
  | some o =>
    obtain ⟨ho, j, hj, hget, hbefore⟩ := List.find?_eq_some_iff_getElem.mp hfind
    have hjo : j = o.1 := by rw [← hget]; simp
    have hbyte : (byteOf (base + o.1)).toNat = base + o.1 := byteOf_toNat (by omega)
    refine ⟨⟨o, hbyte, ho⟩, ?_⟩
    rintro i ⟨o', rfl, ho'⟩
    rw [hbyte]
    by_contra hlt
    have hsmall := hbefore o'.1 (by omega)
    simp [ho'] at hsmall

/-! ## What the checks ask (R148) -/

section
variable (m : StationMap)

/-- The output is staged with the mode. -/
def Staged (o : OutId) (mode : OutMode) : Prop := ∃ c, m.outputs[o] = some c ∧ c.mode = mode

/-- The item is a lane with a diverter that the property holds of. -/
def OnLane (i : Nat) (bad : Diverter → Globals → Prop) : Prop :=
  ∃ k : Lane, i = k.1 ∧ (m.diverters[k]).output ≠ none ∧ ∃ g, m.globals = some g ∧ bad m.diverters[k] g

/-- R148: check `c` fails at item `i`, as R177 numbers it. -/
def Fails (c i : Nat) : Prop :=
  (c = 1 ∧ i = 255 ∧ m.globals = none)
  ∨ (c = 2 ∧ ∃ o : OutId, i = o.1 ∧ 2 ≤ (m.stationOuts ++ m.diverterOuts).count o)
  ∨ (c = 3 ∧ ∃ o : OutId, i = o.1
    ∧ ((o ∈ m.stationOuts ∧ ¬Staged m o .pulse) ∨ (o ∈ m.diverterOuts ∧ ¬Staged m o .latch)))
  ∨ (c = 4 ∧ i = 0 ∧ (m.diverters[(0 : Lane)]).output = none)
  ∨ (c = 4 ∧ ∃ (j : StationId) (dist busy : Nat) (outs : Vector (Option OutId) 4), i = 8 + j.1
    ∧ m.stations[j] = .lane dist busy outs ∧ outs[(0 : Lane)] = none)
  ∨ (c = 5 ∧ OnLane m i (fun d g => (d.dist : Int) - d.openLead < ((4095 + g.confirmSpan + g.arm : Nat) : Int)))
  ∨ (c = 6 ∧ OnLane m i (fun d _ => ∃ j : StationId, m.stations[j] ≠ .absent ∧ d.dist ≤ (m.stations[j]).distance))
  ∨ (c = 7 ∧ OnLane m i (fun d g => g.stackDist ≤ d.dist))

variable {m}

theorem fails_5 {i : Nat} : Fails m 5 i
    ↔ OnLane m i (fun d g => (d.dist : Int) - d.openLead < ((4095 + g.confirmSpan + g.arm : Nat) : Int)) := by
  simp [Fails]

theorem fails_6 {i : Nat} : Fails m 6 i
    ↔ OnLane m i (fun d _ => ∃ j : StationId, m.stations[j] ≠ .absent ∧ d.dist ≤ (m.stations[j]).distance) := by
  simp [Fails]

theorem fails_7 {i : Nat} : Fails m 7 i ↔ OnLane m i (fun d g => g.stackDist ≤ d.dist) := by
  simp [Fails]

theorem stagedMode_eq_iff {o : OutId} {mode : OutMode} : m.stagedMode o = some mode ↔ Staged m o mode := by
  simp [StationMap.stagedMode, Staged]

theorem lacksLane_iff {st : Station} {k : Lane} :
    st.lacksLane k = true ↔ ∃ dist busy outs, st = .lane dist busy outs ∧ outs[k] = none := by
  cases st <;> simp [Station.lacksLane]

theorem isPresent_iff {st : Station} : st.isPresent = true ↔ st ≠ .absent := by
  cases st <;> simp [Station.isPresent]

theorem stations_all (p : Station → Bool) : m.stations.toList.all p = true ↔ ∀ j : StationId, p m.stations[j] = true := by
  simp only [List.all_eq_true, Vector.mem_toList_iff, Vector.mem_iff_getElem]
  exact ⟨fun h j => h _ ⟨j.1, j.2, rfl⟩, fun h x ⟨j, hj, hx⟩ => hx ▸ h ⟨j, hj⟩⟩

theorem least_twiceNamed : Least (Fails m 2) (m.twiceNamed.map (fun o : OutId => byteOf o)) := by
  have h := least_find (base := 0) (fun o : OutId => decide (2 ≤ (m.stationOuts ++ m.diverterOuts).count o)) (by omega)
  simp only [Nat.zero_add] at h
  exact h.congr fun i => by simp [Fails]

theorem least_wrongMode : Least (Fails m 3) (m.wrongMode.map (fun o : OutId => byteOf o)) := by
  have h := least_find (base := 0) (fun o : OutId => (m.stationOuts.contains o && decide (m.stagedMode o ≠ some .pulse))
      || (m.diverterOuts.contains o && decide (m.stagedMode o ≠ some .latch))) (by omega)
  simp only [Nat.zero_add] at h
  exact h.congr fun i => by simp [Fails, stagedMode_eq_iff]

theorem least_lacksL0 : Least (Fails m 4) m.lacksL0 := by
  unfold StationMap.lacksL0
  split
  · next hnone =>
    have hnone' : (m.diverters[(0 : Lane)]).output = none := by simpa using hnone
    exact ⟨.inr (.inr (.inr (.inl ⟨rfl, rfl, hnone'⟩))), fun i _ => Nat.zero_le i⟩
  · next hsome =>
    have h := least_find (base := 8) (fun j : StationId => (m.stations[j]).lacksLane 0) (by omega)
    refine h.congr fun i => ?_
    have hsome' : (m.diverters[(0 : Lane)]).output ≠ none := by simpa using hsome
    simp only [lacksLane_iff, Fails, hsome', and_false, false_or]
    simp

theorem least_laneFailing {c : Nat} {ok : Diverter → Bool} {bad : Diverter → Globals → Prop} {g : Globals}
    (hg : m.globals = some g) (hfails : ∀ i, Fails m c i ↔ OnLane m i bad) (hok : ∀ k : Lane, ok m.diverters[k] = false ↔ bad m.diverters[k] g) :
    Least (Fails m c) ((m.laneFailing ok).map (fun k : Lane => byteOf k)) := by
  have h := least_find (base := 0) (fun k : Lane => (m.diverters[k]).output.isSome && !ok m.diverters[k]) (by omega)
  simp only [Nat.zero_add] at h
  refine h.congr fun i => ?_
  rw [hfails]
  simp only [OnLane, hg, Option.some.injEq, exists_eq_left', Bool.and_eq_true, Option.isSome_iff_ne_none, Bool.not_eq_true', hok]

theorem params_eq {g : Globals} (hg : m.globals = some g) : m.params = g := by
  rw [StationMap.params, hg]
  rfl

theorem map_bind_val {α : Type} {n : Nat} (x : Option (Fin n)) (f : Nat → α) :
    (x >>= fun o => pure o.1).map f = x.map (fun o => f o.1) := by
  cases x <;> rfl

/-- R148: `fault` names the least failing check and its least failing item. -/
theorem leastPair_fault : LeastPair (Fails m) m.fault := by
  unfold StationMap.fault
  cases hg : m.globals with
  | none =>
    refine ⟨.inl ⟨rfl, rfl, hg⟩, fun c i hfails => ?_⟩
    rcases hfails with ⟨rfl, rfl, -⟩ | ⟨rfl, -⟩ | ⟨rfl, -⟩ | ⟨rfl, -⟩ | ⟨rfl, -⟩ | ⟨rfl, -⟩ | ⟨rfl, -⟩ | ⟨rfl, -⟩ <;> simp
  | some g =>
    have hend : LeastPair (fun c i => 8 ≤ c ∧ Fails m c i) none := by
      rintro c i ⟨hc, hfails⟩
      unfold Fails at hfails
      omega
    have h5 := least_laneFailing (c := 5) (ok := m.divertsInTime) hg (fun i => fails_5) (fun k => by
      rw [StationMap.divertsInTime, decide_eq_false_iff_not, params_eq hg]
      omega)
    have h6 := least_laneFailing (c := 6) (ok := m.divertsAfterFolds) hg (fun i => fails_6) (fun k => by
      rw [← Bool.not_eq_true, StationMap.divertsAfterFolds, stations_all]
      simp [isPresent_iff])
    have h7 := least_laneFailing (c := 7) (ok := m.stacksAfterDivert) hg (fun i => fails_7) (fun k => by
      simp [StationMap.stacksAfterDivert, params_eq hg])
    have hchain := leastPair_orElse (c := 2) least_twiceNamed (leastPair_orElse (c := 3) least_wrongMode
      (leastPair_orElse (c := 4) least_lacksL0 (leastPair_orElse (c := 5) h5 (leastPair_orElse (c := 6) h6
        (leastPair_orElse (c := 7) h7 hend)))))
    rw [if_neg (by simp)]
    simp only [Option.map_map, Option.orElse_eq_orElse, Option.orElse_eq_or, Option.or_none, Function.comp_def, map_bind_val] at hchain ⊢
    refine hchain.congr fun c i => ⟨fun h => h.2, fun hfails => ⟨?_, hfails⟩⟩
    have hglobals : m.globals ≠ none := by simp [hg]
    simp only [Fails, hglobals, and_false, false_or] at hfails
    show 2 ≤ c
    omega

end

/-- Settles O51. -/
theorem commitChecksAskWhatR148Asks : Obligations.CommitChecksAskWhatR148Asks := by
  intro m
  refine ⟨?_, leastPair_fault.some_iff⟩
  rw [leastPair_fault.none_iff]
  constructor
  · intro hno
    obtain ⟨g, hg⟩ := Option.ne_none_iff_exists'.mp fun h => hno 1 255 (.inl ⟨rfl, rfl, h⟩)
    refine ⟨g, hg, fun o => ?_, fun o ho => ?_, fun o ho => ?_, fun h => ?_, fun j dist busy outs hj hnone => ?_,
      fun k hk => ⟨?_, fun j hj => ?_, ?_⟩⟩
    · exact Nat.lt_succ_iff.mp (Nat.lt_of_not_le fun h => hno 2 o.1 (.inr (.inl ⟨rfl, o, rfl, h⟩)))
    · by_contra h
      exact hno 3 o.1 (.inr (.inr (.inl ⟨rfl, o, rfl, .inl ⟨ho, h⟩⟩)))
    · by_contra h
      exact hno 3 o.1 (.inr (.inr (.inl ⟨rfl, o, rfl, .inr ⟨ho, h⟩⟩)))
    · exact hno 4 0 (.inr (.inr (.inr (.inl ⟨rfl, rfl, h⟩))))
    · exact hno 4 (8 + j.1) (.inr (.inr (.inr (.inr (.inl ⟨rfl, j, dist, busy, outs, rfl, hj, hnone⟩)))))
    · exact Int.not_lt.mp fun h => hno 5 k.1 (fails_5.mpr ⟨k, rfl, hk, g, hg, h⟩)
    · exact Nat.not_le.mp fun h => hno 6 k.1 (fails_6.mpr ⟨k, rfl, hk, g, hg, j, hj, h⟩)
    · exact Nat.not_le.mp fun h => hno 7 k.1 (fails_7.mpr ⟨k, rfl, hk, g, hg, h⟩)
  · rintro ⟨g, hg, honce, hpulse, hlatch, hL0, hlane, hlanes⟩ c i hfails
    rcases hfails with ⟨-, -, h⟩ | ⟨-, o, -, h⟩ | ⟨-, o, -, ⟨ho, h⟩ | ⟨ho, h⟩⟩ | ⟨-, -, h⟩
      | ⟨-, j, dist, busy, outs, -, hj, h⟩ | ⟨-, k, -, hk, g', hg', h⟩ | ⟨-, k, -, hk, g', hg', j, hj, h⟩
      | ⟨-, k, -, hk, g', hg', h⟩
    · simp [hg] at h
    · have := honce o
      omega
    · exact h (hpulse o ho)
    · exact h (hlatch o ho)
    · exact hL0 h
    · exact hlane j dist busy outs hj h
    all_goals
      obtain rfl : g = g' := by simpa [hg] using hg'
      obtain ⟨htime, hfolds, hstack⟩ := hlanes k hk
    · omega
    · exact absurd (hfolds j hj) (Nat.not_lt.mpr h)
    · omega

/-! ## COMMIT_MAP (R148, R149) -/

section
variable {s : State} {src : Byte}

theorem commitMap_frozen (h : s.line ≠ .init) : s.commitMap src [] = s.answer src kindCommitMap .frozen :=
  if_pos h

theorem commitMap_refused (h : s.line = .init) {check item : Byte} (hfault : s.setup.staging.fault = some (check, item)) :
    s.commitMap src [] = s.report [s.answerTelegram src kindCommitMap .invalid check [item]] := by
  simp only [State.commitMap, if_neg (not_not.mpr h), hfault]

theorem commitMap_accepted (h : s.line = .init) (hfault : s.setup.staging.fault = none) : s.commitMap src []
    = ((s.commit.setLine .ready).answer src kindCommitMap .accepted).emit (.state s.line .ready .commit s.position) := by
  simp only [State.commitMap, if_neg (not_not.mpr h), hfault, commit_changeLine]

end

/-- R95: the record of each output right after commit. -/
theorem outputAt_eq (m : StationMap) (o : OutId) :
    (∀ c, o ∈ m.stationOuts → m.outputs[o] = some c → m.outputAt o = ⟨.station, c.shot, none, 0, false⟩)
    ∧ (o ∉ m.stationOuts → o ∈ m.diverterOuts → m.outputAt o = ⟨.diverter, 0, none, 0, false⟩)
    ∧ (o ∉ m.stationOuts → o ∉ m.diverterOuts → m.outputAt o = ⟨.unused, 0, none, 0, false⟩) := by
  refine ⟨fun c ho hc => ?_, fun ho hd => ?_, fun ho hd => ?_⟩
  · simp only [StationMap.outputAt, List.contains_iff_mem, if_pos ho, hc]
    rfl
  · simp only [StationMap.outputAt, List.contains_iff_mem, if_neg ho, if_pos hd]
    rfl
  · simp only [StationMap.outputAt, List.contains_iff_mem, if_neg ho, if_neg hd]
    rfl

/-- Settles O52. -/
theorem commitPutsTheMapInForce : Obligations.CommitPutsTheMapInForce := by
  intro s src m g hrst haddr hm
  subst hm
  rw [exec_commitMap hrst haddr]
  refine ⟨fun hinit hfault hg => ?_, fun check item hinit hfault => ?_, fun hline => ?_⟩
  · have hparams := params_eq hg
    have hnode : s.node ≠ 31 := ((Telegrams.addressable_iff s src).mp haddr).1
    refine ⟨_, congrArg Host.Outcome.next (commitMap_accepted hinit hfault), by simp, ?_, ?_, fun o => ?_, by simp [State.commit], ?_,
      by simp [State.commit], by simp [State.commit], by simp [State.commit], by simp [State.commit], by simp [State.commit]⟩
    · simp [State.commit]
      rfl
    · simp [State.commit, hparams]
    · have houts : ∀ o : OutId, (tabulate s.setup.staging.outputAt)[o] = s.setup.staging.outputAt o :=
        fun o => getElem_tabulate _ o.1 o.2
      simpa [State.commit, houts] using outputAt_eq s.setup.staging o
    · dsimp only
      have hnode' : ((s.commit.setLine .ready).answer src kindCommitMap .accepted).node ≠ 31 := by simpa [State.commit] using hnode
      have hnote : ((s.commit.setLine .ready).answer src kindCommitMap .accepted).noteTelegram
          (.state s.line .ready .commit s.position) = ⟨g.reportNode, s.nodeByte, 0x85, [0, 1, 0] ++ posBytes s.position⟩ := by
        rw [hinit]
        have hreport : ((s.commit.setLine .ready).answer src kindCommitMap .accepted).reportNode = g.reportNode := by
          simp [State.reportNode, State.commit, Setup.commit, hparams]
        have hbyte : ((s.commit.setLine .ready).answer src kindCommitMap .accepted).nodeByte = s.nodeByte := by
          simp [State.nodeByte, State.commit]
        rw [State.noteTelegram, hreport, hbyte]
        rfl
      rw [emit_report hnode', hnote]
      obtain ⟨hlink, hloss⟩ := report_congr (s := s.commit.setLine .ready) (u := s) rfl rfl [plainAnswer s src 0x24 0]
      exact report_congr hlink hloss _
  · rw [commitMap_refused hinit hfault]
    rfl
  · rw [commitMap_frozen hline]
    rfl

end Sys2Proof.Proofs.Commit
end

section
/-! PROOFS. The loads to the working tables: their form, the line states and locks that refuse them, and their content
(R150 to R155). -/

namespace Sys2Proof.Proofs.Loads

open Sys2Proof Sys2Proof.Machine Sys2Proof.Safety Sys2Proof.Proofs.Changes Sys2Proof.Proofs.Rows Sys2Proof.Proofs.Staging

/-! ## The form of a command of the Setup Store -/

section
variable {s : State} {src : Byte} {p : List Byte}

theorem setupGlobals_form (h : p.length ≠ 12) : s.setupGlobals src p = s.answer src kindSetupGlobals .invalid := by
  unfold State.setupGlobals
  split
  · simp at h
  · rfl

theorem setupStation_form (h : p.length ≠ 10 ∨ ∃ b ∈ p.head?, 5 < b.toNat) :
    s.setupStation src p = s.answer src kindSetupStation .invalid := by
  unfold State.setupStation
  split
  · obtain ⟨b, hb, hlarge⟩ := h.resolve_left (by simp)
    cases hb
    rw [byteFin_none hlarge]
  · rfl

theorem setupOutput_form (h : p.length ≠ 4 ∨ ∃ b ∈ p.head?, 15 < b.toNat) :
    s.setupOutput src p = s.answer src kindSetupOutput .invalid := by
  unfold State.setupOutput
  split
  · obtain ⟨b, hb, hlarge⟩ := h.resolve_left (by simp)
    cases hb
    rw [byteFin_none hlarge]
  · rfl

theorem setupDiverter_form (h : p.length ≠ 8 ∨ ∃ b ∈ p.head?, 3 < b.toNat) :
    s.setupDiverter src p = s.answer src kindSetupDiverter .invalid := by
  unfold State.setupDiverter
  split
  · obtain ⟨b, hb, hlarge⟩ := h.resolve_left (by simp)
    cases hb
    rw [byteFin_none hlarge]
  · rfl

theorem commitMap_form (h : p ≠ []) : s.commitMap src p = s.answer src kindCommitMap .invalid := by
  cases p with
  | nil => exact absurd rfl h
  | cons b p => rfl

theorem loadArticle_form (h : p.length ≠ 9 ∨ ∃ b ∈ p.head?, 63 < b.toNat) :
    s.loadArticle src p = s.answer src kindLoadArticle .invalid := by
  unfold State.loadArticle
  split
  · obtain ⟨b, hb, hlarge⟩ := h.resolve_left (by simp)
    cases hb
    rw [byteFin_none hlarge]
  · rfl

theorem loadPlan_form (h : (∀ c ∈ p[1]?, p.length ≠ 2 + 4 * c.toNat) ∨ ∃ b ∈ p.head?, 15 < b.toNat) :
    s.loadPlan src p = s.answer src kindLoadPlan .invalid := by
  unfold State.loadPlan
  split
  · next plan count steps =>
    split
    · rfl
    · next hlength =>
      have hform : ¬∀ c ∈ (plan :: count :: steps)[1]?, (plan :: count :: steps).length ≠ 2 + 4 * c.toNat := fun hall =>
        hall count rfl (by simp only [List.length_cons]; omega)
      obtain ⟨b, hb, hlarge⟩ := h.resolve_left hform
      cases hb
      rw [byteFin_none hlarge]
  · rfl

theorem loadCustomer_form (h : p.length ≠ 7 ∨ ∃ b ∈ p.head?, 15 < b.toNat) :
    s.loadCustomer src p = s.answer src kindLoadCustomer .invalid := by
  unfold State.loadCustomer
  split
  · obtain ⟨b, hb, hlarge⟩ := h.resolve_left (by simp)
    cases hb
    rw [byteFin_none hlarge]
  · rfl

theorem loadLanes_form (h : p.length ≠ 4) : s.loadLanes src p = s.answer src kindLoadLanes .invalid := by
  unfold State.loadLanes
  split
  · simp at h
  · rfl

theorem lockEntry_form (h : p.length ≠ 2) : s.lockEntry src p = s.answer src kindLockEntry .invalid := by
  unfold State.lockEntry
  split
  · simp at h
  · rfl

end

/-! ## The line states and the locks (R150) -/

section
variable {s : State} {src kind : Byte} {accepts locked : Bool} {x : Option (Setup × Code)}

theorem load_state (h : accepts = false) : s.load src kind accepts locked x = s.report [plainAnswer s src kind 2] := by
  subst h
  rfl

theorem load_locked (h : accepts = true) (hlocked : locked = true) :
    s.load src kind accepts locked x = s.report [plainAnswer s src kind 3] := by
  subst h hlocked
  rfl

theorem load_none (h : accepts = true) (hlocked : locked = false) :
    s.load src kind accepts locked none = s.report [plainAnswer s src kind 4] := by
  subst h hlocked
  rfl

theorem load_some (h : accepts = true) (hlocked : locked = false) (x : Setup) (code : Code) :
    s.load src kind accepts locked (some (x, code)) = (s.setSetup x).report [plainAnswer s src kind code.code] := by
  subst h hlocked
  rfl

end

theorem takesTables_iff {l : LineState} : l.takesTables = true ↔ l = .ready ∨ l = .run := by
  cases l <;> decide

theorem takesTables_false {l : LineState} (h : l ≠ .ready) (h2 : l ≠ .run) : l.takesTables = false :=
  Bool.eq_false_iff.mpr fun h3 => (takesTables_iff.mp h3).elim h h2

theorem takesCustomers_iff {l : LineState} : l.takesCustomers = true ↔ l = .ready ∨ l = .run ∨ l = .drain := by
  cases l <;> decide

theorem takesCustomers_false {l : LineState} (h : l = .init ∨ l = .service) : l.takesCustomers = false := by
  rcases h with rfl | rfl <;> rfl

section
variable {s : State} {src : Byte}

theorem loadArticle_eq (a : Article) (valid route plan min1 min0 max1 max0 target : Byte) :
    s.loadArticle src [byteOf a, valid, route, plan, min1, min0, max1, max0, target]
      = s.load src kindLoadArticle s.line.takesTables s.setup.articleLocks[a]
          (s.setup.withArticle a valid route plan (word16 min1 min0) (word16 max1 max0) target) := by
  simp only [State.loadArticle, byteFin_byteOf a (by omega)]

theorem loadPlan_eq (n : PlanNo) {count : Byte} {p : List Byte} (h : p.length = 4 * count.toNat) :
    s.loadPlan src (byteOf n :: count :: p)
      = s.load src kindLoadPlan s.line.takesTables s.setup.planLocks[n] (s.withPlan n p) := by
  simp only [State.loadPlan, if_neg (not_not.mpr h), byteFin_byteOf n (by omega)]

theorem loadCustomer_eq (i : CustomerIndex) (valid b1 b0 m1 m0 group : Byte) :
    s.loadCustomer src [byteOf i, valid, b1, b0, m1, m0, group]
      = s.load src kindLoadCustomer s.line.takesCustomers false
          (s.setup.withCustomer i valid (word16Bits b1 b0) (word16Bits m1 m0) group) := by
  simp only [State.loadCustomer, byteFin_byteOf i (by omega)]

theorem lockEntry_eq {table index : Byte} {x : Setup} (h : s.setup.lock table index = some x) :
    s.lockEntry src [table, index] = s.load src kindLockEntry (decide (s.line ≠ .init)) false (some (x, .accepted)) := by
  simp only [State.lockEntry, h]

theorem lockEntry_none {table index : Byte} (h : s.setup.lock table index = none) :
    s.lockEntry src [table, index] = s.answer src kindLockEntry .invalid := by
  simp only [State.lockEntry, h]

end

section
variable (x : Setup)

theorem lock_article (a : Article) : x.lock 0 (byteOf a) = some { x with articleLocks := upd x.articleLocks a true } := by
  rw [Setup.lock, if_pos rfl, byteFin_byteOf a (by omega), Option.map_some]

theorem lock_plan (n : PlanNo) : x.lock 1 (byteOf n) = some { x with planLocks := upd x.planLocks n true } := by
  rw [Setup.lock, if_neg (by decide), if_pos rfl, byteFin_byteOf n (by omega), Option.map_some]

theorem lock_article_none {b : Byte} (h : 63 < b.toNat) : x.lock 0 b = none := by
  rw [Setup.lock, if_pos rfl, byteFin_none h, Option.map_none]

theorem lock_plan_none {b : Byte} (h : 15 < b.toNat) : x.lock 1 b = none := by
  rw [Setup.lock, if_neg (by decide), if_pos rfl, byteFin_none h, Option.map_none]

theorem lock_table_none {table b : Byte} (h : 1 < table.toNat) : x.lock table b = none := by
  rw [Setup.lock, if_neg (by bv_omega), if_neg (by bv_omega)]

end

/-- Settles O54: the form, then the line state, then the lock, each before the content. -/
theorem loadsAreRefusedByStateAndLock : Obligations.LoadsAreRefusedByStateAndLock := by
  intro s src hrst haddr
  dsimp only
  refine ⟨fun p => ?form, fun b => ?entry, fun hline => ?staging, fun a p hp => ?article, fun n c p hp => ?plan,
    fun i p hp hline => ?customer, fun p hp hline => ?lanes, fun hinit => ?lock⟩
  case form =>
    rw [exec_setupGlobals hrst haddr, exec_setupStation hrst haddr, exec_setupOutput hrst haddr, exec_setupDiverter hrst haddr,
      exec_commitMap hrst haddr, exec_loadArticle hrst haddr, exec_loadPlan hrst haddr, exec_loadCustomer hrst haddr,
      exec_loadLanes hrst haddr, exec_lockEntry hrst haddr]
    exact ⟨fun h => congrArg _ (setupGlobals_form h), fun h => congrArg _ (setupStation_form h),
      fun h => congrArg _ (setupOutput_form h), fun h => congrArg _ (setupDiverter_form h), fun h => congrArg _ (commitMap_form h),
      fun h => congrArg _ (loadArticle_form h), fun h => congrArg _ (loadPlan_form h), fun h => congrArg _ (loadCustomer_form h),
      fun h => congrArg _ (loadLanes_form h), fun h => congrArg _ (lockEntry_form h)⟩
  case entry =>
    simp only [exec_lockEntry hrst haddr]
    exact ⟨fun h => congrArg _ (lockEntry_none (lock_article_none _ h)), fun h => congrArg _ (lockEntry_none (lock_plan_none _ h)),
      fun table h => congrArg _ (lockEntry_none (lock_table_none _ h))⟩
  case staging =>
    refine ⟨fun p hp => ?_, fun i p hp => ?_, fun o p hp => ?_, fun k p hp => ?_⟩
    · rw [exec_setupGlobals hrst haddr]
      match p, hp with
      | [_, _, _, _, _, _, _, _, _, _, _, _], _ => exact congrArg _ (stage_frozen src kindSetupGlobals hline _)
    · match p, hp with
      | [_, _, _, _, _, _, _, _, _], _ => rw [exec_setupStation_form hrst haddr, stage_frozen _ _ hline]; rfl
    · match p, hp with
      | [_, _, _], _ => rw [exec_setupOutput_form hrst haddr, stage_frozen _ _ hline]; rfl
    · match p, hp with
      | [_, _, _, _, _, _, _], _ => rw [exec_setupDiverter_form hrst haddr, stage_frozen _ _ hline]; rfl
  case article =>
    rw [exec_loadArticle hrst haddr]
    match p, hp with
    | [valid, route, plan, min1, min0, max1, max0, target], _ =>
      rw [loadArticle_eq]
      exact ⟨fun h h2 => congrArg _ (load_state (takesTables_false h h2)),
        fun h hlocked => congrArg _ (load_locked (takesTables_iff.mpr h) hlocked)⟩
  case plan =>
    rw [exec_loadPlan hrst haddr, loadPlan_eq n hp]
    exact ⟨fun h h2 => congrArg _ (load_state (takesTables_false h h2)),
      fun h hlocked => congrArg _ (load_locked (takesTables_iff.mpr h) hlocked)⟩
  case customer =>
    rw [exec_loadCustomer hrst haddr]
    match p, hp with
    | [valid, b1, b0, m1, m0, group], _ =>
      rw [loadCustomer_eq]
      exact congrArg _ (load_state (takesCustomers_false hline))
  case lanes =>
    rw [exec_loadLanes hrst haddr]
    match p, hp with
    | [plan, mask, policy, article], _ => exact congrArg _ (load_state (decide_eq_false hline))
  case lock =>
    simp only [exec_lockEntry hrst haddr]
    have hstate : decide (s.line ≠ .init) = false := decide_eq_false (not_not.mpr hinit)
    refine ⟨fun a => ?_, fun n => ?_⟩
    · rw [lockEntry_eq (lock_article _ a), load_state hstate]
      rfl
    · rw [lockEntry_eq (lock_plan _ n), load_state hstate]
      rfl

end Sys2Proof.Proofs.Loads
end

section
/-! PROOFS. The content of the loads to the working tables (R151 to R155). -/

namespace Sys2Proof.Proofs.Content

open Sys2Proof Sys2Proof.Machine Sys2Proof.Safety Sys2Proof.Proofs.Changes Sys2Proof.Proofs.Rows Sys2Proof.Proofs.Staging
  Sys2Proof.Proofs.Loads

/-! ## Article rows (R151) -/

theorem byteRoute_code (r : Route) : byteRoute r.code = some r := by cases r <;> rfl

theorem byteFlag_large {b : Byte} (h : 1 < b.toNat) : byteFlag b = none :=
  Snapshot.byteFlag_none (by bv_omega) (by bv_omega)

section
variable {x : Setup} {route plan target : Byte} {min max : Nat}

theorem articleRow_some {r : Route} {n : PlanNo} (hroute : byteRoute route = some r) (hplan : r = .stack → x.plans[n] ≠ none)
    (hmin : 1 ≤ min) (hle : min ≤ max) (hmax : max ≤ 4095) (htarget : target ≠ 0) :
    x.articleRow route (byteOf n) min max target = if target.toNat < 4 then some (⟨r, n, min, max, 4⟩, .clamped)
      else some (⟨r, n, min, max, target.toNat⟩, .accepted) := by
  have hvalid : ¬(r = .stack ∧ (x.plans[n]).isNone = true) := fun ⟨hr, hn⟩ => hplan hr (Option.isNone_iff_eq_none.mp hn)
  have hrange : (inRange 1 4095 min && inRange 1 4095 max && decide (min ≤ max)) = true := by
    simp only [Bool.and_eq_true, inRange_iff, decide_eq_true_eq]
    omega
  simp only [Setup.articleRow, hroute, byteFin_byteOf n (by omega), if_neg hvalid, hrange, Bool.not_true, Bool.false_eq_true,
    if_false, if_neg htarget]

/-- R151: what a row that is written has passed. -/
theorem articleRow_passed {y : ArticleRow × Code} (h : x.articleRow route plan min max target = some y) :
    ∃ r n, byteRoute route = some r ∧ byteFin 16 plan = some n ∧ ¬(r = .stack ∧ (x.plans[n]).isNone = true)
      ∧ (1 ≤ min ∧ max ≤ 4095 ∧ min ≤ max) ∧ target ≠ 0 := by
  unfold Setup.articleRow at h
  split at h
  · next r n hr hn =>
    split at h
    · cases h
    · next hvalid =>
      split at h
      · cases h
      · next hrange =>
        split at h
        · cases h
        · next htarget =>
          simp only [Bool.not_eq_true, Bool.not_eq_false', Bool.and_eq_true, inRange_iff, decide_eq_true_eq] at hrange
          exact ⟨r, n, hr, hn, hvalid, by omega, htarget⟩
  · cases h

theorem byteRoute_none {b : Byte} (h : 2 < b.toNat) : byteRoute b = none := by
  have h0 : b ≠ 0 := by bv_omega
  have h1 : b ≠ 1 := by bv_omega
  have h2 : b ≠ 2 := by bv_omega
  simp only [byteRoute, h0, h1, h2, if_false]

theorem articleRow_none (h : 2 < route.toNat ∨ 15 < plan.toNat
    ∨ (route = 0 ∧ ∃ n : PlanNo, plan = byteOf n ∧ x.plans[n] = none) ∨ min = 0 ∨ 4095 < max ∨ max < min ∨ target = 0) :
    x.articleRow route plan min max target = none := by
  by_contra hne
  obtain ⟨y, hy⟩ := Option.ne_none_iff_exists'.mp hne
  obtain ⟨r, n, hr, hn, hvalid, hrange, htarget⟩ := articleRow_passed hy
  rcases h with h | h | ⟨rfl, m, rfl, h⟩ | h | h | h | h
  · simp [byteRoute_none h] at hr
  · simp [byteFin_none h] at hn
  · have hstack : r = .stack := (Option.some.inj hr).symm
    obtain rfl : m = n := by simpa [byteFin_byteOf m (by omega)] using hn
    exact hvalid ⟨hstack, by rw [h]; rfl⟩
  · omega
  · omega
  · omega
  · exact htarget h

variable {a : Article} {valid : Byte}

theorem withArticle_off : x.withArticle a 0 route plan min max target
    = some ({ x with articles := upd x.articles a none }, .accepted) := rfl

theorem withArticle_on : x.withArticle a 1 route plan min max target = (x.articleRow route plan min max target).map
    (fun r => ({ x with articles := upd x.articles a (some r.1) }, r.2)) := rfl

theorem withArticle_large (h : 1 < valid.toNat) : x.withArticle a valid route plan min max target = none := by
  simp only [Setup.withArticle, byteFlag_large h]

end

/-! ## Plans (R152) -/

/-- R175: the four bytes of a step. -/
def stepBytes (y : PlanStep) : List Byte := [byteOf y.station, byteOf y.num, byteOf y.den, BitVec.ofInt 8 y.trim]

theorem byte_toInt {i : Int} (h : -128 ≤ i ∧ i ≤ 127) : (BitVec.ofInt 8 i).toInt = i := by
  rw [BitVec.toInt_ofInt, Int.bmod_eq_of_le] <;> omega

theorem planSteps_stepBytes (steps : List PlanStep)
    (h : ∀ y ∈ steps, y.num < 256 ∧ y.den < 256 ∧ -128 ≤ y.trim ∧ y.trim ≤ 127) :
    planSteps (steps.flatMap stepBytes) = some steps := by
  induction steps with
  | nil => rfl
  | cons y steps ih =>
    obtain ⟨hnum, hden, htrim⟩ := h y List.mem_cons_self
    have hrest := ih fun z hz => h z (List.mem_cons_of_mem _ hz)
    simp only [List.flatMap_cons, stepBytes, List.cons_append, List.nil_append] at hrest ⊢
    simp only [planSteps, byteFin_byteOf y.station (by omega), hrest, byteOf_toNat hnum, byteOf_toNat hden, byte_toInt htrim]

theorem flatMap_length_four {α : Type} (f : α → List Byte) (hf : ∀ x, (f x).length = 4) (l : List α) :
    (l.flatMap f).length = 4 * l.length := by
  induction l with
  | nil => rfl
  | cons x l ih => rw [List.flatMap_cons, List.length_append, hf, ih, List.length_cons]; omega

/-- R175: the step that four bytes spell. -/
def Spelt (y : PlanStep) (q : Byte × Byte × Byte × Byte) : Prop :=
  byteFin 6 q.1 = some y.station ∧ y.num = q.2.1.toNat ∧ y.den = q.2.2.1.toNat

/-- The four bytes one after another. -/
def quadBytes (q : Byte × Byte × Byte × Byte) : List Byte := [q.1, q.2.1, q.2.2.1, q.2.2.2]

theorem spelt_of_planSteps {quads : List (Byte × Byte × Byte × Byte)} {steps : List PlanStep}
    (h : planSteps (quads.flatMap quadBytes) = some steps) : List.Forall₂ Spelt steps quads := by
  induction quads generalizing steps with
  | nil =>
    cases h
    exact .nil
  | cons q quads ih =>
    simp only [List.flatMap_cons, quadBytes, List.cons_append, List.nil_append, planSteps] at h ih
    split at h
    · next st rest hst hrest =>
      cases h
      exact .cons ⟨hst, rfl, rfl⟩ (ih hrest)
    · cases h

theorem increasing_iff (l : List Nat) : increasing l = true ↔ l.IsChain (· < ·) := by
  induction l with
  | nil => simp [increasing]
  | cons a l ih =>
    cases l with
    | nil => simp [increasing]
    | cons b l => simp only [increasing, Bool.and_eq_true, decide_eq_true_eq, ih, List.isChain_cons_cons]

section
variable {s : State}

/-- R152: what the content check asks of the steps. -/
theorem planOk_iff (steps : List PlanStep) : s.planOk steps = true ↔ steps.length ≤ 4
    ∧ (∀ y ∈ steps, s.map.stations[y.station] ≠ .absent)
    ∧ (∀ y ∈ steps, (1 ≤ y.num ∧ y.num ≤ 7) ∧ (2 ≤ y.den ∧ y.den ≤ 8) ∧ y.num < y.den)
    ∧ (steps.map (fun y => (s.map.stations[y.station]).distance)).IsChain (· < ·)
    ∧ (∀ y ∈ steps, ∀ k : Lane, s.enabled k = true → (s.map.stations[y.station]).lacksLane k = false) := by
  simp only [State.planOk, Bool.and_eq_true, decide_eq_true_eq, List.all_eq_true, Commit.isPresent_iff, inRange_iff,
    increasing_iff, and_assoc, allLanes, List.mem_finRange, true_imp_iff, Bool.not_eq_true', Bool.and_eq_false_imp]

theorem withPlan_some {n : PlanNo} {p : List Byte} {steps : List PlanStep} (hsteps : planSteps p = some steps)
    (hok : s.planOk steps = true) :
    s.withPlan n p = some ({ s.setup with plans := upd s.setup.plans n (some steps) }, .accepted) := by
  simp only [State.withPlan, hsteps, hok, if_true]

theorem withPlan_none {n : PlanNo} {p : List Byte} (h : ∀ steps, planSteps p = some steps → ¬s.planOk steps = true) :
    s.withPlan n p = none := by
  unfold State.withPlan
  split
  · rfl
  · next steps hsteps => rw [if_neg (h steps hsteps)]

/-- R152: the quads of a plan that the content check refuses. -/
theorem planOk_spelt {steps : List PlanStep} {quads : List (Byte × Byte × Byte × Byte)} (hspelt : List.Forall₂ Spelt steps quads)
    (hbad : 4 < quads.length
      ∨ (∃ q ∈ quads, 5 < q.1.toNat ∨ q.2.1.toNat < 1 ∨ 7 < q.2.1.toNat ∨ q.2.2.1.toNat < 2 ∨ 8 < q.2.2.1.toNat
        ∨ q.2.2.1.toNat ≤ q.2.1.toNat ∨ ∃ i : StationId, q.1 = byteOf i ∧ (s.map.stations[i] = .absent
          ∨ ∃ (k : Lane) (dist busy : Nat) (outs : Vector (Option OutId) 4), s.enabled k = true
            ∧ s.map.stations[i] = .lane dist busy outs ∧ outs[k] = none))
      ∨ ∃ (l r : List (Byte × Byte × Byte × Byte)) (q q' : Byte × Byte × Byte × Byte) (i i' : StationId),
        quads = l ++ q :: q' :: r ∧ q.1 = byteOf i ∧ q'.1 = byteOf i'
          ∧ (s.map.stations[i']).distance ≤ (s.map.stations[i]).distance) :
    ¬s.planOk steps = true := by
  intro hok
  obtain ⟨hlength, hpresent, hranges, hchain, hlanes⟩ := (planOk_iff steps).mp hok
  have hstation : ∀ {y : PlanStep} {q : Byte × Byte × Byte × Byte} {i : StationId}, Spelt y q → q.1 = byteOf i → y.station = i := by
    intro y q i hy hq
    have hfin := hy.1
    rw [hq, byteFin_byteOf i (by omega)] at hfin
    exact (Option.some.inj hfin).symm
  rcases hbad with hlong | ⟨q, hq, hbad⟩ | ⟨l, r, q, q', i, i', rfl, hi, hi', hdist⟩
  · rw [← hspelt.length_eq] at hlong
    omega
  · obtain ⟨l, r, rfl⟩ := List.append_of_mem hq
    have hdrop := List.forall₂_drop_append steps l (q :: r) hspelt
    obtain ⟨y, rest, hy, -, hsteps⟩ := List.forall₂_cons_right_iff.mp hdrop
    have hmem : y ∈ steps := List.mem_of_mem_drop (hsteps ▸ List.mem_cons_self)
    obtain ⟨hnum, hden, hlt⟩ := hranges y hmem
    obtain ⟨hfin, hnum', hden'⟩ := id hy
    rcases hbad with h | h | h | h | h | h | ⟨i, hi, h⟩
    · simp [byteFin_none h] at hfin
    · omega
    · omega
    · omega
    · omega
    · omega
    · obtain rfl := hstation hy hi
      rcases h with h | ⟨k, dist, busy, outs, hk, h, hnone⟩
      · exact hpresent y hmem h
      · exact absurd (Commit.lacksLane_iff.mpr ⟨dist, busy, outs, h, hnone⟩) (by rw [hlanes y hmem k hk]; decide)
  · have hdrop := List.forall₂_drop_append steps l (q :: q' :: r) hspelt
    obtain ⟨y, rest, hy, hrest, hsteps⟩ := List.forall₂_cons_right_iff.mp hdrop
    obtain ⟨y', rest', hy', -, rfl⟩ := List.forall₂_cons_right_iff.mp hrest
    obtain rfl := hstation hy hi
    obtain rfl := hstation hy' hi'
    have hpair := hchain.drop l.length
    rw [← List.map_drop, hsteps, List.map_cons, List.map_cons, List.isChain_cons_cons] at hpair
    omega

end

/-! ## Customers and lanes (R153, R154) -/

section
variable {x : Setup} {i : CustomerIndex} {base mask : CustomerId} {valid group : Byte}

theorem withCustomer_on {g : Group} (h : g ≠ 0) : x.withCustomer i 1 base mask (byteOf g)
    = some ({ x with customers := upd x.customers i (some ⟨base, mask, g⟩) }, .accepted) := by
  have hflag : byteFlag 1 = some true := rfl
  simp only [Setup.withCustomer, hflag, byteFin_byteOf g (by omega), if_neg h]

theorem withCustomer_off : x.withCustomer i 0 base mask group
    = some ({ x with customers := upd x.customers i none }, .accepted) := rfl

theorem withCustomer_none (h : 1 < valid.toNat ∨ (valid = 1 ∧ (group = 0 ∨ 15 < group.toNat))) :
    x.withCustomer i valid base mask group = none := by
  rcases h with h | ⟨rfl, rfl | h⟩
  · simp only [Setup.withCustomer, byteFlag_large h]
  · rfl
  · have hflag : byteFlag 1 = some true := rfl
    simp only [Setup.withCustomer, hflag, byteFin_none h]

end

/-- R175: the bytes of a plan and of a policy. -/
def planByte (p : PlanKind) : Byte := match p with
  | .wide => 0
  | .dual => 1
  | .quad => 2

def policyByte (p : AnonPolicy) : Byte := match p with
  | .reject => 0
  | .stack => 1

section
variable {m : StationMap} {plan mask policy article : Byte}

theorem laneFitted_iff {k : Lane} : m.laneFitted k = true ↔ (m.diverters[k]).output ≠ none
    ∧ ∀ i : StationId, (m.stations[i]).lacksLane k = false := by
  simp only [StationMap.laneFitted, Bool.and_eq_true, Option.isSome_iff_ne_none, Commit.stations_all, Bool.not_eq_true']

theorem lanesOf_some (l : LanePlan) (hmask : l.mask ≠ 0)
    (hlanes : ∀ k : Lane, l.mask.getLsbD k = true → l.plan.holds k = true ∧ m.laneFitted k = true) :
    lanesOf m (planByte l.plan) (l.mask.setWidth 8) (policyByte l.policy) (byteOf l.default) = some l := by
  have hplan : bytePlanKind (planByte l.plan) = some l.plan := by cases l.plan <;> rfl
  have hpolicy : bytePolicy (policyByte l.policy) = some l.policy := by cases l.policy <;> rfl
  have hsmall : ¬(l.mask.setWidth 8 = 0 ∨ 16 ≤ (l.mask.setWidth 8).toNat) := by
    rintro (h | h)
    · exact hmask (by bv_omega)
    · bv_omega
  have hall : allLanes.all (fun k => !(l.mask.setWidth 8).getLsbD k || (l.plan.holds k && m.laneFitted k)) = true := by
    refine List.all_eq_true.mpr fun k _ => ?_
    by_cases hk : l.mask.getLsbD k = true
    · simp [hlanes k hk]
    · rw [BitVec.getLsbD_setWidth, Bool.eq_false_iff.mpr hk, Bool.and_false]
      rfl
  have hback : (l.mask.setWidth 8).setWidth 4 = l.mask := by bv_omega
  simp only [lanesOf, hplan, hpolicy, byteFin_byteOf l.default (by omega), if_neg hsmall, hall, if_true, hback]

/-- R154: what a plan that is loaded has passed. -/
theorem lanesOf_passed {l : LanePlan} (h : lanesOf m plan mask policy article = some l) :
    ∃ pk po a, bytePlanKind plan = some pk ∧ bytePolicy policy = some po ∧ byteFin 64 article = some a
      ∧ ¬(mask = 0 ∨ 16 ≤ mask.toNat)
      ∧ ∀ k : Lane, mask.getLsbD k = true → pk.holds k = true ∧ m.laneFitted k = true := by
  unfold lanesOf at h
  split at h
  · next pk po a hplan hpolicy ha =>
    split at h
    · cases h
    · next hmask =>
      split at h
      · next hall =>
        refine ⟨pk, po, a, hplan, hpolicy, ha, hmask, fun k hk => ?_⟩
        simpa [hk] using List.all_eq_true.mp hall k (List.mem_finRange k)
      · cases h
  · cases h

theorem lanesOf_none (h : 2 < plan.toNat ∨ mask = 0 ∨ 15 < mask.toNat ∨ 1 < policy.toNat ∨ 63 < article.toNat
    ∨ (∃ k : Lane, mask.getLsbD k = true ∧ ((plan = 0 ∧ k ≠ 0) ∨ (plan = 1 ∧ k ≠ 0 ∧ k ≠ 2)
      ∨ (m.diverters[k]).output = none ∨ ∃ (i : StationId) (dist busy : Nat) (outs : Vector (Option OutId) 4),
        m.stations[i] = .lane dist busy outs ∧ outs[k] = none))) :
    lanesOf m plan mask policy article = none := by
  by_contra hne
  obtain ⟨l, hl⟩ := Option.ne_none_iff_exists'.mp hne
  obtain ⟨pk, po, a, hplan, hpolicy, ha, hmask, hlanes⟩ := lanesOf_passed hl
  rcases h with h | h | h | h | h | ⟨k, hk, h⟩
  · have h0 : plan ≠ 0 := by bv_omega
    have h1 : plan ≠ 1 := by bv_omega
    have h2 : plan ≠ 2 := by bv_omega
    simp only [bytePlanKind, h0, h1, h2, if_false, reduceCtorEq] at hplan
  · exact hmask (.inl h)
  · exact hmask (.inr h)
  · have h0 : policy ≠ 0 := by bv_omega
    have h1 : policy ≠ 1 := by bv_omega
    simp only [bytePolicy, h0, h1, if_false, reduceCtorEq] at hpolicy
  · simp [byteFin_none h] at ha
  · obtain ⟨hholds, hfitted⟩ := hlanes k hk
    obtain ⟨hdiverter, hstations⟩ := laneFitted_iff.mp hfitted
    rcases h with ⟨rfl, h⟩ | ⟨rfl, h, h2⟩ | h | ⟨i, dist, busy, outs, h, hnone⟩
    · cases hplan
      exact h (of_decide_eq_true hholds)
    · cases hplan
      simp [PlanKind.holds, h, h2] at hholds
    · exact hdiverter h
    · exact absurd (Commit.lacksLane_iff.mpr ⟨dist, busy, outs, h, hnone⟩) (by rw [hstations i]; decide)

end

/-- Settles O53. -/
theorem workingTableLoadsWriteTheirEntry : Obligations.WorkingTableLoadsWriteTheirEntry := by
  intro s src hrst haddr
  dsimp only
  refine ⟨?rows, ?rowsOff, ?rowsBad, ?plans, ?plansBad, ?customersBad, ?lanesBad, ?customers, ?lanes, ?locks⟩
  case rows =>
    intro a row hline hlock hplan hmin hle hmax
    have hwords : word16 (byteOf (row.min / 256)) (byteOf row.min) = row.min
        ∧ word16 (byteOf (row.max / 256)) (byteOf row.max) = row.max := ⟨word16_bytes (by omega), word16_bytes (by omega)⟩
    have hload : ∀ {n : Nat} {r : ArticleRow} {code : Code}, 1 ≤ n → n ≤ 255 →
        (if n < 4 then some ((⟨row.route, row.plan, row.min, row.max, 4⟩ : ArticleRow), Code.clamped)
          else some (⟨row.route, row.plan, row.min, row.max, n⟩, .accepted)) = some (r, code) →
        exec (.loadArticle src ([byteOf a, 1, row.route.code, byteOf row.plan] ++ bytes16 row.min ++ bytes16 row.max ++ [byteOf n])) s
          = .next ((s.setSetup { s.setup with articles := upd s.setup.articles a (some r) }).report
              [plainAnswer s src 0x30 code.code]) := by
      intro n r code hlow hhigh hr
      have hn : (byteOf n).toNat = n := byteOf_toNat (by omega)
      have hne : byteOf n ≠ 0 := fun h => by simp [h] at hn; omega
      have hrow := articleRow_some (x := s.setup) (byteRoute_code row.route) hplan hmin hle hmax hne
      rw [hn, hr] at hrow
      rw [exec_loadArticle hrst haddr]
      refine congrArg _ ((loadArticle_eq ..).trans ?_)
      rw [hwords.1, hwords.2, withArticle_on, hrow, Option.map_some, load_some (takesTables_iff.mpr hline) hlock]
      rfl
    exact ⟨fun hlow hhigh => hload (code := .accepted) (by omega) hhigh (if_neg (by omega)),
      fun n hlow hhigh => hload (code := .clamped) hlow (by omega) (if_pos (by omega))⟩
  case rowsOff =>
    intro a b1 b2 b3 b4 b5 b6 b7 hline hlock
    rw [exec_loadArticle hrst haddr, loadArticle_eq, withArticle_off, load_some (takesTables_iff.mpr hline) hlock]
    rfl
  case rowsBad =>
    intro a valid route plan min1 min0 max1 max0 target hline hlock hbad
    have hnone : s.setup.withArticle a valid route plan (word16 min1 min0) (word16 max1 max0) target = none := by
      rcases hbad with h | ⟨rfl, h⟩
      · exact withArticle_large h
      · have hrow : s.setup.articleRow route plan (word16 min1 min0) (word16 max1 max0) target = none := articleRow_none h
        rw [withArticle_on, hrow, Option.map_none]
    rw [exec_loadArticle hrst haddr, loadArticle_eq, hnone, load_none (takesTables_iff.mpr hline) hlock]
    rfl
  case plans =>
    intro n steps hline hlock hok htrims
    obtain ⟨hlength, -, hranges, -⟩ := (planOk_iff steps).mp hok
    have hsteps : planSteps (steps.flatMap stepBytes) = some steps := planSteps_stepBytes steps fun y hy => by
      have := hranges y hy
      exact ⟨by omega, by omega, htrims y hy⟩
    have hform : (steps.flatMap stepBytes).length = 4 * (byteOf steps.length).toNat := by
      rw [byteOf_toNat (by omega)]
      exact flatMap_length_four _ (fun _ => rfl) steps
    rw [exec_loadPlan hrst haddr]
    refine congrArg _ ((loadPlan_eq n hform).trans ?_)
    rw [withPlan_some hsteps hok, load_some (takesTables_iff.mpr hline) hlock]
    rfl
  case plansBad =>
    intro n quads hline hlock hmany hbad
    have hform : (quads.flatMap quadBytes).length = 4 * (byteOf quads.length).toNat := by
      rw [byteOf_toNat (by omega)]
      exact flatMap_length_four _ (fun _ => rfl) quads
    rw [exec_loadPlan hrst haddr]
    refine congrArg _ ((loadPlan_eq n hform).trans ?_)
    rw [withPlan_none fun steps hsteps => planOk_spelt (spelt_of_planSteps hsteps) hbad,
      load_none (takesTables_iff.mpr hline) hlock]
    rfl
  case customersBad =>
    intro i valid b1 b0 m1 m0 group hline hbad
    rw [exec_loadCustomer hrst haddr, loadCustomer_eq, withCustomer_none hbad, load_none (takesCustomers_iff.mpr hline) rfl]
    rfl
  case lanesBad =>
    intro plan mask policy article hline hbad
    rw [exec_loadLanes hrst haddr]
    simp only [State.loadLanes, lanesOf_none hbad, Option.map_none, load_none (decide_eq_true hline) rfl]
    rfl
  case customers =>
    intro i b1 b0 m1 m0 g hline hg
    rw [exec_loadCustomer hrst haddr, exec_loadCustomer hrst haddr, loadCustomer_eq, loadCustomer_eq, withCustomer_on hg,
      withCustomer_off, load_some (takesCustomers_iff.mpr hline) rfl, load_some (takesCustomers_iff.mpr hline) rfl]
    exact ⟨rfl, rfl⟩
  case lanes =>
    intro l hline hmask hlanes
    rw [exec_loadLanes hrst haddr]
    have hsome := lanesOf_some l hmask hlanes
    have hload : s.loadLanes src [planByte l.plan, l.mask.setWidth 8, policyByte l.policy, byteOf l.default]
        = (s.setSetup { s.setup with lanes := some l }).report [plainAnswer s src 0x33 0] := by
      simp only [State.loadLanes, hsome, Option.map_some, load_some (decide_eq_true hline) rfl]
      rfl
    exact congrArg _ hload
  case locks =>
    intro a n hline
    have hstate : decide (s.line ≠ .init) = true := decide_eq_true hline
    rw [exec_lockEntry hrst haddr, exec_lockEntry hrst haddr, lockEntry_eq (lock_article _ a), lockEntry_eq (lock_plan _ n),
      load_some hstate rfl, load_some hstate rfl]
    exact ⟨rfl, rfl⟩

end Sys2Proof.Proofs.Content
end

section
/-! PROOFS. The stacker commands, CLEAR_LANE, and the commands that are refused by line state, lane or phase (R102, R121 to
R126, R158, R159). -/

namespace Sys2Proof.Proofs.StackCommands

open Sys2Proof Sys2Proof.Machine Sys2Proof.Safety Sys2Proof.Proofs.Changes Sys2Proof.Proofs.Rows

/-- R174: the answer of a row that leaves the node address. -/
theorem answer_of_node {s u : State} (h : u.node = s.node) (src kind : Byte) (code : Code) :
    u.answer src kind code = u.report [plainAnswer s src kind code.code] := by
  rw [answer_eq, plainAnswer_congr h]

theorem closeStack_node (s : State) (k : Lane) (c : CloseCause) (p : Phase) : (s.closeStack k c p).node = s.node :=
  (closeStack_frame s k c p).2.2.1

theorem drainCloses_node (s : State) : s.drainCloses.node = s.node := (drainCloses_frame s).2.2.1

/-! ## The checks of R121 and R126, in their order -/

section
variable {s : State} {src v : Byte} {k : Lane} {op : StackOp}

theorem stackCmd_lane {b : Byte} (h : 3 < b.toNat) : s.stackCmd src b op v = s.answer src kindStackCmd .invalid := by
  simp only [State.stackCmd, byteFin_none h]

theorem stackCmd_line (h : s.line.runs = false) : s.stackCmd src (byteOf k) op v = s.answer src kindStackCmd .wrongState := by
  simp only [State.stackCmd, byteFin_byteOf k (by omega), h, Bool.not_false, if_true]

theorem clearLane_lane {b : Byte} (h : 3 < b.toNat) : s.clearLane src [b] = s.answer src kindClearLane .invalid := by
  simp only [State.clearLane, byteFin_none h]

theorem clearLane_line (h : s.line.runs = false) : s.clearLane src [byteOf k] = s.answer src kindClearLane .wrongState := by
  simp only [State.clearLane, byteFin_byteOf k (by omega), h, Bool.not_false, if_true]

theorem clearLane_form {p : List Byte} (h : p.length ≠ 1) : s.clearLane src p = s.answer src kindClearLane .invalid := by
  unfold State.clearLane
  split
  · simp at h
  · rfl

variable (hruns : s.line.runs = true)
include hruns

theorem stackCmd_off (h : s.enabled k = false) : s.stackCmd src (byteOf k) op v = s.answer src kindStackCmd .invalid := by
  simp only [State.stackCmd, byteFin_byteOf k (by omega), hruns, h, Bool.not_true, Bool.not_false, Bool.false_eq_true, if_false,
    if_true]

theorem clearLane_off (h : s.enabled k = false) : s.clearLane src [byteOf k] = s.answer src kindClearLane .invalid := by
  simp only [State.clearLane, byteFin_byteOf k (by omega), hruns, h, Bool.not_true, Bool.not_false, Bool.false_eq_true, if_false,
    if_true]

variable (henabled : s.enabled k = true)
include henabled

theorem stackCmd_stopped (hphase : (s.stackers[k]).phase = .stopped) (hop : op ≠ .target) :
    s.stackCmd src (byteOf k) op v = s.answer src kindStackCmd .wrongState := by
  simp only [State.stackCmd, byteFin_byteOf k (by omega), hruns, henabled, Bool.not_true, Bool.false_eq_true, if_false,
    if_pos (And.intro hphase hop)]

theorem stackCmd_passes (h : (s.stackers[k]).phase ≠ .stopped ∨ op = .target) :
    s.stackCmd src (byteOf k) op v = s.stackDo src k op v := by
  have hnot : ¬((s.stackers[k]).phase = .stopped ∧ op ≠ .target) := fun ⟨hphase, hop⟩ => h.elim (absurd hphase) hop
  simp only [State.stackCmd, byteFin_byteOf k (by omega), hruns, henabled, Bool.not_true, Bool.false_eq_true, if_false,
    if_neg hnot]

theorem stackCmd_resume_refused (hphase : (s.stackers[k]).phase ≠ .paused) :
    s.stackCmd src (byteOf k) .resume v = s.answer src kindStackCmd .wrongState := by
  by_cases hstopped : (s.stackers[k]).phase = .stopped
  · exact stackCmd_stopped hruns henabled hstopped (by decide)
  · rw [stackCmd_passes hruns henabled (.inl hstopped)]
    exact if_neg hphase

theorem clearLane_phase (hphase : (s.stackers[k]).phase ≠ .stopped) :
    s.clearLane src [byteOf k] = s.answer src kindClearLane .wrongState := by
  simp only [State.clearLane, byteFin_byteOf k (by omega), hruns, henabled, Bool.not_true, Bool.false_eq_true, if_false,
    if_pos hphase]

theorem clearLane_passes (hphase : (s.stackers[k]).phase = .stopped) :
    s.clearLane src [byteOf k] = (s.clearStopped k).answer src kindClearLane .accepted := by
  simp only [State.clearLane, byteFin_byteOf k (by omega), hruns, henabled, Bool.not_true, Bool.false_eq_true, if_false,
    if_neg (not_not.mpr hphase)]

end

/-! ## The checks of R102 and R158 -/

section
variable {s : State} {src : Byte} {o : OutId} {op : ForceOp}

theorem forceOutput_number {b : Byte} (h : 15 < b.toNat) : s.forceOutput src b op = s.answer src kindForceOutput .invalid := by
  simp only [State.forceOutput, byteFin_none h]

theorem forceOutput_line (h : s.line ≠ .service) :
    s.forceOutput src (byteOf o) op = s.answer src kindForceOutput .wrongState := by
  simp only [State.forceOutput, byteFin_byteOf o (by omega), if_pos h]

theorem forceOutput_unused (hline : s.line = .service) (h : (s.outs[o]).role = .unused) :
    s.forceOutput src (byteOf o) op = s.answer src kindForceOutput .invalid := by
  simp only [State.forceOutput, byteFin_byteOf o (by omega), if_neg (not_not.mpr hline), if_pos h]

theorem forceOutput_shot (hline : s.line = .service) (h : (s.outs[o]).role = .diverter) :
    s.forceOutput src (byteOf o) .shot = s.answer src kindForceOutput .invalid := by
  have hused : (s.outs[o]).role ≠ .unused := by rw [h]; decide
  simp only [State.forceOutput, byteFin_byteOf o (by omega), if_neg (not_not.mpr hline), if_neg hused,
    if_pos (And.intro trivial h)]

theorem lineMode_refused {x : LineState} (h : s.line.modeRow x = false) :
    s.lineMode src x = s.answer src kindLineMode .wrongState := by
  simp only [State.lineMode, h, Bool.false_eq_true, if_false]

end

section
variable {l : LineState}

theorem modeRow_ready (h : l ≠ .service) : l.modeRow .ready = false := by
  cases l with
  | service => exact absurd rfl h
  | _ => rfl

theorem modeRow_run (h : l ≠ .ready) (h2 : l ≠ .drain) : l.modeRow .run = false := by
  cases l with
  | ready => exact absurd rfl h
  | drain => exact absurd rfl h2
  | _ => rfl

theorem modeRow_drain (h : l ≠ .run) : l.modeRow .drain = false := by
  cases l with
  | run => exact absurd rfl h
  | _ => rfl

theorem modeRow_service (h : l ≠ .ready) : l.modeRow .service = false := by
  cases l with
  | ready => exact absurd rfl h
  | _ => rfl

end

/-- Settles O56. -/
theorem gatedCommandsAreRefused : Obligations.GatedCommandsAreRefused := by
  intro s src v k o hrst haddr
  simp only [exec_stackCmdClose hrst haddr, exec_stackCmdStop hrst haddr, exec_stackCmdStopAfter hrst haddr,
    exec_stackCmdResume hrst haddr, exec_stackCmdTarget hrst haddr, exec_clearLane hrst haddr, exec_forceOutputSet hrst haddr,
    exec_forceOutputClear hrst haddr, exec_forceOutputShot hrst haddr, exec_lineModeReady hrst haddr, exec_lineModeRun hrst haddr,
    exec_lineModeDrain hrst haddr, exec_lineModeService hrst haddr]
  refine ⟨fun h => ?line, fun hruns h => ?off, fun b h => ?lane, fun p h => congrArg _ (clearLane_form h), fun b h => ?number,
    fun hruns hen h => ?stopped, fun hruns hen h => congrArg _ (stackCmd_resume_refused hruns hen h),
    fun hruns hen h => congrArg _ (clearLane_phase hruns hen h), fun h => ?service, fun hline h => ?unused,
    fun hline h => congrArg _ (forceOutput_shot hline h), fun h => congrArg _ (lineMode_refused (modeRow_ready h)),
    fun h h2 => congrArg _ (lineMode_refused (modeRow_run h h2)), fun h => congrArg _ (lineMode_refused (modeRow_drain h)),
    fun h => congrArg _ (lineMode_refused (modeRow_service h))⟩
  case line =>
    have hcmd := fun op => congrArg (Host.Outcome.next : State → Result) (stackCmd_line (src := src) (v := v) (k := k) (op := op) h)
    exact ⟨hcmd _, hcmd _, hcmd _, hcmd _, hcmd _, congrArg _ (clearLane_line h)⟩
  case off =>
    have hcmd := fun op => congrArg (Host.Outcome.next : State → Result) (stackCmd_off (src := src) (v := v) (op := op) hruns h)
    exact ⟨hcmd _, hcmd _, hcmd _, hcmd _, hcmd _, congrArg _ (clearLane_off hruns h)⟩
  case lane =>
    have hcmd := fun op => congrArg (Host.Outcome.next : State → Result) (stackCmd_lane (s := s) (src := src) (v := v) (op := op) h)
    exact ⟨hcmd _, hcmd _, hcmd _, hcmd _, hcmd _, congrArg _ (clearLane_lane h)⟩
  case number =>
    have hforce := fun op => congrArg (Host.Outcome.next : State → Result) (forceOutput_number (s := s) (src := src) (op := op) h)
    exact ⟨hforce _, hforce _, hforce _⟩
  case stopped =>
    have hcmd := fun op hop => congrArg (Host.Outcome.next : State → Result) (stackCmd_stopped (src := src) (v := v) (op := op) hruns hen h hop)
    exact ⟨hcmd _ (by decide), hcmd _ (by decide), hcmd _ (by decide)⟩
  case service =>
    have hforce := fun op => congrArg (Host.Outcome.next : State → Result) (forceOutput_line (src := src) (o := o) (op := op) h)
    exact ⟨hforce _, hforce _, hforce _⟩
  case unused =>
    have hforce := fun op => congrArg (Host.Outcome.next : State → Result) (forceOutput_unused (src := src) (op := op) hline h)
    exact ⟨hforce _, hforce _, hforce _⟩

/-! ## What each command does (R122 to R126) -/

section
variable {s : State} {k : Lane}

theorem setStacker_same : s.setStacker k s.stackers[k] = s := by
  simp only [setStacker_eq, Fin.getElem_fin, upd_self]
  rfl

theorem setStacker_twice (x y : Stacker) : (s.setStacker k x).setStacker k y = s.setStacker k y := by
  simp [upd_upd]
  rfl

theorem setStacker_getElem (x : Stacker) : (s.setStacker k x).stackers[k] = x := by
  simp

/-- A note waits for nothing that a stacker holds. -/
theorem emit_setStacker (x : Stacker) (n : Note) : (s.setStacker k x).emit n = (s.emit n).setStacker k x := by
  obtain ⟨hlink, hloss⟩ := emit_congr (s := s.setStacker k x) (u := s) rfl rfl rfl rfl n
  apply state_ext <;> simp [← hlink, ← hloss]

/-! ### CLOSE, STOP and STOP_AFTER -/

theorem stackClose_collecting (h : (s.stackers[k]).phase = .collecting) : s.stackClose k = s.closeStack k .command .offered :=
  if_pos h

theorem stackClose_other (h : (s.stackers[k]).phase ≠ .collecting) : s.stackClose k = s := if_neg h

theorem pause_open {st : Stacker} (h : st.phase = .collecting) (hopen : st.stack ≠ none) :
    st.pause = { st with pausePending := true } := by
  simp only [Stacker.pause, h, if_pos (Option.isSome_iff_ne_none.mpr hopen)]

theorem pause_empty {st : Stacker} (h : st.phase = .collecting) (hempty : st.stack = none) :
    st.pause = { st with phase := .paused } := by
  simp only [Stacker.pause, h, hempty, Option.isSome_none, Bool.false_eq_true, if_false]

theorem pause_discharging {st : Stacker} (h : st.phase = .offered ∨ st.phase = .lowering) :
    st.pause = { st with pausePending := true } := by
  rcases h with h | h <;> simp only [Stacker.pause, h]

theorem pause_paused {st : Stacker} (h : st.phase = .paused) : st.pause = st := by
  simp only [Stacker.pause, h]

theorem stackStop_open (h : (s.stackers[k]).phase = .collecting) (hopen : (s.stackers[k]).stack ≠ none) :
    s.stackStop k = (s.closeStack k .command .offered).stackStopAfter k :=
  if_pos ⟨h, Option.isSome_iff_ne_none.mpr hopen⟩

theorem stackStop_other (h : ¬((s.stackers[k]).phase = .collecting ∧ (s.stackers[k]).stack ≠ none)) :
    s.stackStop k = s.stackStopAfter k :=
  if_neg (by simpa [Option.isSome_iff_ne_none] using h)

theorem closeStack_stacker {c : CloseCause} {p : Phase} (hopen : (s.stackers[k]).stack ≠ none) :
    (s.closeStack k c p).stackers[k] = (s.stackers[k]).closed p := by
  obtain ⟨o, ho⟩ := Option.ne_none_iff_exists'.mp hopen
  rw [closeStack_open ho, setStacker_getElem]

/-! ### RESUME and TARGET -/

theorem released_empty {st : Stacker} (h : st.shelf = []) : st.released = { st with phase := .collecting } := by
  simp only [Stacker.released, h]

theorem released_shelf {st : Stacker} {p : Piece} {rest : List Piece} (h : st.shelf = p :: rest) :
    st.released = { st with
      phase := .collecting, shelf := []
      stack := some ⟨p.key, rest.length + 1, (p :: rest).countP (fun x => x.stray),
        if st.override ≠ 0 then st.override else p.target, p.startsBatch⟩ } := by
  simp only [Stacker.released, h, Stacker.openWith, List.countP_cons]
  rw [Nat.add_comm 1, Nat.add_comm (if p.stray = true then 1 else 0)]

theorem override_kept {v : Byte} (h : v = 0 ∨ 4 ≤ v.toNat) : overrideFor v = v.toNat ∧ overrideCode v = .accepted := by
  have hnot : ¬(v ≠ 0 ∧ v.toNat < 4) := by bv_omega
  refine ⟨?_, if_neg hnot⟩
  rcases h with rfl | h
  · rfl
  · rw [overrideFor, if_neg (by bv_omega), if_neg (by omega)]

theorem override_clamped {v : Byte} (hlow : 1 ≤ v.toNat) (hhigh : v.toNat ≤ 3) : overrideFor v = 4 ∧ overrideCode v = .clamped := by
  have hne : v ≠ 0 := by bv_omega
  exact ⟨by rw [overrideFor, if_neg hne, if_pos (by omega)], if_pos ⟨hne, by omega⟩⟩

/-! ### CLEAR_LANE -/

theorem clearStopped_empty (h : (s.stackers[k]).stack = none) : s.clearStopped k = s.setStacker k { s.stackers[k] with
    phase := .collecting, shelf := [], unplaced := min 65535 ((s.stackers[k]).unplaced + (s.stackers[k]).shelf.length) } := by
  rw [← holdAt65535_eq]
  exact if_neg (by rw [Stacker.dumpShelf, h]; decide)

theorem clearStopped_open {o : OpenStack} (h : (s.stackers[k]).stack = some o) :
    s.clearStopped k = ((s.emit (.stackDone k (s.stackers[k]).serial o.key o.pieces o.strays o.target o.batchStart .faultClear
        (min 65535 ((s.stackers[k]).unplaced + (s.stackers[k]).shelf.length)))).credit o.key o.pieces 1 0).setStacker k
      { s.stackers[k] with
        phase := .offered, stack := none, shelf := [], serial := (s.stackers[k]).serial + 1, unplaced := 0 } := by
  have hopen : ((s.stackers[k]).dumpShelf).stack.isSome = true := by rw [Stacker.dumpShelf, h]; rfl
  have hstack : ((s.setStacker k (s.stackers[k]).dumpShelf).stackers[k]).stack = some o := by
    rw [setStacker_getElem]
    exact h
  have hclear : s.clearStopped k = (s.setStacker k (s.stackers[k]).dumpShelf).closeStack k .faultClear .offered := if_pos hopen
  rw [hclear, closeStack_open hstack, setStacker_getElem, emit_setStacker, ← holdAt65535_eq]
  exact setStacker_twice (s := (s.emit _).credit o.key o.pieces 1 0) (s.stackers[k]).dumpShelf _

end

/-- Settles O55. -/
theorem stackCommandsActByPhase : Obligations.StackCommandsActByPhase := by
  intro s src v k hrst haddr hruns henabled
  simp only [exec_stackCmdClose hrst haddr, exec_stackCmdStop hrst haddr, exec_stackCmdStopAfter hrst haddr,
    exec_stackCmdResume hrst haddr, exec_stackCmdTarget hrst haddr, exec_clearLane hrst haddr]
  have hdo : ∀ {op : StackOp} {u : State}, (s.stackers[k]).phase ≠ .stopped ∨ op = .target → s.stackDo src k op v = u →
      (Host.Outcome.next (s.stackCmd src (byteOf k) op v) : Result) = .next u :=
    fun hphase hu => congrArg _ ((stackCmd_passes hruns henabled hphase).trans hu)
  have hclose : ∀ {u : State}, (s.stackers[k]).phase ≠ .stopped → s.stackClose k = u → u.node = s.node →
      (Host.Outcome.next (s.stackCmd src (byteOf k) .close v) : Result) = .next (u.report [plainAnswer s src 0x42 0]) :=
    fun hphase hu hnode => hdo (.inl hphase) (hu ▸ answer_of_node hnode src kindStackCmd .accepted)
  have hstop : ∀ {u : State}, (s.stackers[k]).phase ≠ .stopped → s.stackStop k = u → u.node = s.node →
      (Host.Outcome.next (s.stackCmd src (byteOf k) .stop v) : Result) = .next (u.report [plainAnswer s src 0x42 0]) :=
    fun hphase hu hnode => hdo (.inl hphase) (hu ▸ answer_of_node hnode src kindStackCmd .accepted)
  have hafter : ∀ {u : State}, (s.stackers[k]).phase ≠ .stopped → s.stackStopAfter k = u → u.node = s.node →
      (Host.Outcome.next (s.stackCmd src (byteOf k) .stopAfter v) : Result) = .next (u.report [plainAnswer s src 0x42 0]) :=
    fun hphase hu hnode => hdo (.inl hphase) (hu ▸ answer_of_node hnode src kindStackCmd .accepted)
  refine ⟨fun hphase hopen => ?opened, fun hphase hempty => ?empty, fun hphase => ?discharging, fun hphase => ?paused,
    fun hv => ?kept, fun hlow hhigh => ?clamped, fun hphase => ⟨fun hempty => ?clear, fun o ho => ?clearOpen⟩⟩
  case opened =>
    have hne : (s.stackers[k]).phase ≠ .stopped := by rw [hphase]; decide
    refine ⟨hclose hne (stackClose_collecting hphase) (closeStack_node ..), hstop hne ?_ ?_,
      hafter hne (congrArg _ (pause_open hphase hopen)) rfl⟩
    · rw [stackStop_open hphase hopen, State.stackStopAfter, closeStack_stacker hopen, pause_discharging (.inl rfl)]
      rfl
    · exact closeStack_node ..
  case empty =>
    have hne : (s.stackers[k]).phase ≠ .stopped := by rw [hphase]; decide
    have hpause := congrArg (s.setStacker k) (pause_empty hphase hempty)
    exact ⟨hclose hne ((stackClose_collecting hphase).trans (closeStack_empty hempty)) rfl,
      hstop hne ((stackStop_other fun h => h.2 hempty).trans hpause) rfl, hafter hne hpause rfl⟩
  case discharging =>
    have hne : (s.stackers[k]).phase ≠ .stopped := by rcases hphase with h | h <;> rw [h] <;> decide
    have hcollecting : (s.stackers[k]).phase ≠ .collecting := by rcases hphase with h | h <;> rw [h] <;> decide
    have hpause := congrArg (s.setStacker k) (pause_discharging hphase)
    exact ⟨hclose hne (stackClose_other hcollecting) rfl, hstop hne ((stackStop_other fun h => hcollecting h.1).trans hpause) rfl,
      hafter hne hpause rfl⟩
  case paused =>
    have hne : (s.stackers[k]).phase ≠ .stopped := by rw [hphase]; decide
    have hcollecting : (s.stackers[k]).phase ≠ .collecting := by rw [hphase]; decide
    have hpause : s.stackStopAfter k = s := (congrArg _ (pause_paused hphase)).trans setStacker_same
    have hresume : ∀ {st : Stacker}, (s.stackers[k]).released = st →
        (Host.Outcome.next (s.stackCmd src (byteOf k) .resume v) : Result)
          = .next ((s.setStacker k st).drainCloses.report [plainAnswer s src 0x42 0]) := fun hst =>
      hdo (.inl hne) ((if_pos hphase).trans (hst ▸ answer_of_node (drainCloses_node _) src kindStackCmd .accepted))
    exact ⟨hclose hne (stackClose_other hcollecting) rfl, hstop hne ((stackStop_other fun h => hcollecting h.1).trans hpause) rfl,
      hafter hne hpause rfl, fun hshelf => hresume (released_empty hshelf), fun p rest hshelf => hresume (released_shelf hshelf)⟩
  case kept =>
    obtain ⟨hvalue, hcode⟩ := override_kept hv
    refine hdo (.inr rfl) ?_
    rw [State.stackDo, State.stackTarget, hvalue, hcode]
    rfl
  case clamped =>
    obtain ⟨hvalue, hcode⟩ := override_clamped hlow hhigh
    refine hdo (.inr rfl) ?_
    rw [State.stackDo, State.stackTarget, hvalue, hcode]
    rfl
  case clear =>
    rw [clearLane_passes hruns henabled hphase, clearStopped_empty hempty]
    rfl
  case clearOpen =>
    rw [clearLane_passes hruns henabled hphase, clearStopped_open ho]
    exact congrArg _ (answer_of_node (by simp) src kindClearLane .accepted)

end Sys2Proof.Proofs.StackCommands
end
